-- ==== Sys2Proof/Word.lean ====
section
/-! DEFINITION. The machine's words: the widths the spec gives to bytes, table cells, headers and command words
(spec/00_scope.md R7, R10, R11; spec/30_encoding.md R80). -/

namespace Sys2Proof

/-- One byte of a frame, one `SUBST` entry, one checksum (R7, R63). -/
abbrev Byte := BitVec 8

/-- A 32-bit value: a seed, a `PT` cell, a generator state or output, a result `R` (R7, R82). -/
abbrev Word := BitVec 32

/-- A 40-bit canonical or wire header (R61, R140). -/
abbrev Header := BitVec 40

/-- A 64-bit command word (R80). -/
abbrev Command := BitVec 64

end Sys2Proof
end

