-- ==== Sys2Proof/Syntax.lean ====
section
/-! DEFINITION. The commands of the block: one constructor per row of spec/opcode_table.json (spec/30_encoding.md R84). -/

namespace Sys2Proof

/-- The 26 commands of R84. An operand has exactly the width its row gives it (columns `a`, `b`, `d` of R84), so every term
is a command that can be encoded: what R83 asks of the remaining bits is asked of the word, by the decoder. -/
inductive Instr where
  | nop
  | reset
  /-- `D[3:0]` is the new `CTRL`. -/
  | ctrlwr (value : BitVec 4)
  | ctrlrd
  | status
  /-- `D` is the seed. -/
  | keygen (seed : BitVec 32)
  | getseed
  /-- `D[14:0]` is the flat index. -/
  | ptrd (index : BitVec 15)
  /-- `D[8:0]` is the index. -/
  | itrd (index : BitVec 9)
  /-- `D[4:0]` is the index. -/
  | vsrd (index : BitVec 5)
  /-- `A[2:0]` is the selector. -/
  | hdrrd (sel : BitVec 3)
  /-- `D[7:0]` is the byte. -/
  | rxpush (byte : BitVec 8)
  /-- `A[10:0]` is the address. -/
  | rxrd (addr : BitVec 11)
  | dechdr
  | decbody
  | rxpkt
  | rxnext
  | linkdown
  | adechdr
  | adecbody
  /-- `A[10:0]` is the address, `D[7:0]` the byte. -/
  | txwr (addr : BitVec 11) (byte : BitVec 8)
  /-- `A[10:0]` is the address. -/
  | txrd (addr : BitVec 11)
  /-- `A[10:0]` is the frame's size, `B[10:0]` the command id. -/
  | encrypt (size : BitVec 11) (command : BitVec 11)
  /-- `A[10:0]` is the frame's size. -/
  | aencrypt (size : BitVec 11)
  /-- `A[10:0]` is the payload's length, `B[10:0]` the command id. -/
  | txsend (n : BitVec 11) (command : BitVec 11)
  | txdone
deriving DecidableEq, Repr

end Sys2Proof
end

