-- ==== Sys2Proof/Decode.lean ====
section
/-! DEFINITION. The decoder and the encoder of command words: spec/30_encoding.md R80 to R87. -/

namespace Sys2Proof

/-- Why a word is no command (R85): verdict (1) or verdict (2). -/
inductive DecodeError where
  /-- `OP` is not one of the 26 values of R84: the block answers `REF_OPCODE`. -/
  | illegal
  /-- A bit that R83 requires to be zero is one: the block answers `REF_RESERVED`. -/
  | reserved
deriving DecidableEq, Repr

/-- Word bits 63:56 (R81). -/
def opField (w : Command) : BitVec 8 := w.extractLsb' 56 8

/-- Word bits 55:44 (R81). -/
def aField (w : Command) : BitVec 12 := w.extractLsb' 44 12

/-- Word bits 43:32 (R81). -/
def bField (w : Command) : BitVec 12 := w.extractLsb' 32 12

/-- Word bits 31:0 (R81). -/
def dField (w : Command) : BitVec 32 := w.extractLsb' 0 32

/-- Every bit of the field at or above the low `k` is zero (R83). -/
def fitsIn {n : Nat} (x : BitVec n) (k : Nat) : Bool := x >>> k == 0

/-- Verdicts (2) and (3) of R85 for a row whose columns in R84 are `a`, `b`, `d`: reserved if a bit outside the used ones
is set, and otherwise the row's command. -/
def acceptIf (w : Command) (a b d : Nat) (i : Instr) : Except DecodeError Instr :=
  if fitsIn (aField w) a && fitsIn (bField w) b && fitsIn (dField w) d then .ok i else .error .reserved

/-- R85: the decoder, total on 64-bit words. One line per row of R84, with its columns `a`, `b`, `d`. -/
def decode (w : Command) : Except DecodeError Instr :=
  match (opField w).toNat with
  | 0x00 => acceptIf w 0 0 0 .nop
  | 0x01 => acceptIf w 0 0 0 .reset
  | 0x02 => acceptIf w 0 0 4 (.ctrlwr ((dField w).setWidth 4))
  | 0x03 => acceptIf w 0 0 0 .ctrlrd
  | 0x04 => acceptIf w 0 0 0 .status
  | 0x05 => acceptIf w 0 0 32 (.keygen (dField w))
  | 0x06 => acceptIf w 0 0 0 .getseed
  | 0x07 => acceptIf w 0 0 15 (.ptrd ((dField w).setWidth 15))
  | 0x08 => acceptIf w 0 0 9 (.itrd ((dField w).setWidth 9))
  | 0x09 => acceptIf w 0 0 5 (.vsrd ((dField w).setWidth 5))
  | 0x0A => acceptIf w 3 0 0 (.hdrrd ((aField w).setWidth 3))
  | 0x10 => acceptIf w 0 0 8 (.rxpush ((dField w).setWidth 8))
  | 0x11 => acceptIf w 11 0 0 (.rxrd ((aField w).setWidth 11))
  | 0x12 => acceptIf w 0 0 0 .dechdr
  | 0x13 => acceptIf w 0 0 0 .decbody
  | 0x14 => acceptIf w 0 0 0 .rxpkt
  | 0x15 => acceptIf w 0 0 0 .rxnext
  | 0x16 => acceptIf w 0 0 0 .linkdown
  | 0x17 => acceptIf w 0 0 0 .adechdr
  | 0x18 => acceptIf w 0 0 0 .adecbody
  | 0x20 => acceptIf w 11 0 8 (.txwr ((aField w).setWidth 11) ((dField w).setWidth 8))
  | 0x21 => acceptIf w 11 0 0 (.txrd ((aField w).setWidth 11))
  | 0x22 => acceptIf w 11 11 0 (.encrypt ((aField w).setWidth 11) ((bField w).setWidth 11))
  | 0x23 => acceptIf w 11 0 0 (.aencrypt ((aField w).setWidth 11))
  | 0x24 => acceptIf w 11 11 0 (.txsend ((aField w).setWidth 11) ((bField w).setWidth 11))
  | 0x25 => acceptIf w 0 0 0 .txdone
  | _ => .error .illegal

/-- R87: `OP << 56 | a << 44 | b << 32 | d`, the fields of R81 side by side. -/
def commandWord (op : BitVec 8) (a b : BitVec 12) (d : BitVec 32) : Command := op ++ a ++ b ++ d

/-- The encoder: the word of a command, from the rows of R84. -/
def encode : Instr → Command
  | .nop => commandWord 0x00 0 0 0
  | .reset => commandWord 0x01 0 0 0
  | .ctrlwr value => commandWord 0x02 0 0 (value.setWidth 32)
  | .ctrlrd => commandWord 0x03 0 0 0
  | .status => commandWord 0x04 0 0 0
  | .keygen seed => commandWord 0x05 0 0 seed
  | .getseed => commandWord 0x06 0 0 0
  | .ptrd index => commandWord 0x07 0 0 (index.setWidth 32)
  | .itrd index => commandWord 0x08 0 0 (index.setWidth 32)
  | .vsrd index => commandWord 0x09 0 0 (index.setWidth 32)
  | .hdrrd sel => commandWord 0x0A (sel.setWidth 12) 0 0
  | .rxpush byte => commandWord 0x10 0 0 (byte.setWidth 32)
  | .rxrd addr => commandWord 0x11 (addr.setWidth 12) 0 0
  | .dechdr => commandWord 0x12 0 0 0
  | .decbody => commandWord 0x13 0 0 0
  | .rxpkt => commandWord 0x14 0 0 0
  | .rxnext => commandWord 0x15 0 0 0
  | .linkdown => commandWord 0x16 0 0 0
  | .adechdr => commandWord 0x17 0 0 0
  | .adecbody => commandWord 0x18 0 0 0
  | .txwr addr byte => commandWord 0x20 (addr.setWidth 12) 0 (byte.setWidth 32)
  | .txrd addr => commandWord 0x21 (addr.setWidth 12) 0 0
  | .encrypt size command => commandWord 0x22 (size.setWidth 12) (command.setWidth 12) 0
  | .aencrypt size => commandWord 0x23 (size.setWidth 12) 0 0
  | .txsend n command => commandWord 0x24 (n.setWidth 12) (command.setWidth 12) 0
  | .txdone => commandWord 0x25 0 0 0

/-- What the decoder reads from an instruction whose `nbits` low bits are `w`, every bit above being 0. A command is ONE
64-bit word that the host hands over whole (R80, R81): it lies in no memory and has no byte order, so the number
spec/opcode_table.json gives it is the word itself. -/
def decodeTableWord (nbits w : Nat) : Option Instr :=
  match decode (BitVec.ofNat 64 (w % 2 ^ nbits)) with
  | .ok i => some i
  | .error _ => none

end Sys2Proof
end

