-- ==== Sys2Proof/Config.lean ====
section
/-! DEFINITION. The configuration of the block: spec/00_scope.md R8. What the spec gives a value for is a plain constant;
what it leaves OPEN is an opaque constant with no body, so that nothing can be proved of its value (log entry 8). -/

namespace Sys2Proof

/-- The OPEN parameters of R8, as one record, so that every operation can be read (and tested under the test configuration
TC1 of spec/95_test_vectors.md) as a function of the configuration. `nextX` maps a variant's 32-bit state to its new state
and the output of the draw (R120); `subst` is the 256-byte table `SUBST` (R36); `altx` is `ALTX` (R190). -/
structure Params where
  nextA : Word → Word × Word
  nextB : Word → Word × Word
  nextC : Word → Word × Word
  nextD : Word → Word × Word
  subst : Byte → Byte
  altx  : Byte

/-- R8, R120: generator variant A. OPEN: any total function. Log entry 8. -/
opaque Config.nextA : Word → Word × Word

/-- R8, R120: generator variant B. OPEN: any total function. Log entry 8. -/
opaque Config.nextB : Word → Word × Word

/-- R8, R120: generator variant C. OPEN: any total function. Log entry 8. -/
opaque Config.nextC : Word → Word × Word

/-- R8, R120: generator variant D. OPEN: any total function. Log entry 8. -/
opaque Config.nextD : Word → Word × Word

/-- R8, R36, R150: the checksum-substitution table. OPEN: any 256 bytes, not assumed a bijection. Log entry 8. -/
opaque Config.subst : Byte → Byte

/-- R8, R190: the alternate codec's constant. OPEN: any byte, zero included. Log entry 8. -/
opaque Config.altx : Byte

/-- The configuration of the block the machine models: every OPEN parameter uninterpreted. -/
def Config.hardware : Params where
  nextA := Config.nextA
  nextB := Config.nextB
  nextC := Config.nextC
  nextD := Config.nextD
  subst := Config.subst
  altx  := Config.altx

/-- R8: `ENC_TSALT`. -/
def Config.encTsalt : BitVec 11 := 1

/-- R8: `ENC_RSALT`. -/
def Config.encRsalt : BitVec 4 := 1

/-- R160: `ENC_KVAL = ((ENC_TSALT + ENC_RSALT) & 0xFF) & 7`, which is 2. -/
def Config.encKval : BitVec 3 :=
  BitVec.ofNat 3 (((Config.encTsalt.toNat + Config.encRsalt.toNat) &&& 0xFF) &&& 7)

/-- R8: `BUFCAP`, the size of each buffer and the largest frame. -/
def Config.bufcap : Nat := 2047

/-- R8, R150: `CK_INIT`, the start of every checksum chain. -/
def Config.ckInit : Byte := 0

end Sys2Proof
end

