-- ==== Sys2Proof/Machine/State.lean ====
section
/-! DEFINITION. The state of the block: spec/10_state.md. The registers of R21 to R35, the memories of R37 to R41, and the
model's own two fields for the host's side of the interface (R19, R80, R82). -/

namespace Sys2Proof.Machine

/-- A private address space of cells `w` bits wide (spec/20_memory.md R63, R66): pairs of address and value, in ONE canonical
form (`Memory.wf`). With `w = 8` a pair is a `Host.Cell`. An unlisted cell reads 0 (log entry 7). -/
abbrev Memory (w : Nat) := List (Nat × BitVec w)

/-- The canonical form: addresses strictly rising, and no entry equal to what an unlisted cell reads as. -/
abbrev Memory.wf {w : Nat} (m : Memory w) : Prop :=
  (m.map Prod.fst).Pairwise (· < ·) ∧ ∀ c ∈ m, c.2 ≠ 0

/-- `FSTATE`, 2 bits (R30): each of the four codes names a state, in the order 0, 1, 2, 3. -/
inductive FState where
  | awaitHeader
  | awaitBody
  | ready
  | failed
deriving DecidableEq, Repr

/-- The response to a command (spec/30_encoding.md R82): status `ST` and result `R`. -/
structure Response where
  st : BitVec 8
  r  : BitVec 32
deriving DecidableEq, Repr

/-- The whole state of the block between commands (R43), and the model's two fields for the host. -/
structure State where
  /-- `SEED` (R21). -/
  seed : BitVec 32
  /-- `KSVALID` (R22). -/
  ksvalid : Bool
  /-- `BLEN` (R23). -/
  blen : BitVec 16
  /-- `CMD` (R24). -/
  cmd : BitVec 16
  /-- `TSALT` (R25). -/
  tsalt : BitVec 11
  /-- `RSALT` (R26). -/
  rsalt : BitVec 4
  /-- `KVAL` (R27). -/
  kval : BitVec 3
  /-- `DLEN` (R28). -/
  dlen : BitVec 16
  /-- `CK` (R29). -/
  ck : BitVec 8
  /-- `FSTATE` (R30). -/
  fstate : FState
  /-- `NEED` (R31). -/
  need : BitVec 16
  /-- `ERR` (R32). -/
  err : BitVec 3
  /-- `CTRL` (R33). -/
  ctrl : BitVec 4
  /-- `RXLEN` (R35). -/
  rxlen : BitVec 11
  /-- `TXLEN` (R35). -/
  txlen : BitVec 11
  /-- `PT` (R37). -/
  pt : Memory 32
  /-- `IT` (R38). -/
  itab : Memory 16
  /-- `VSEL` (R39). -/
  vsel : Memory 2
  /-- `RXBUF` (R40). -/
  rxbuf : Memory 8
  /-- `TXBUF` (R41). -/
  txbuf : Memory 8
  /-- The MODEL's own: the command words the host has yet to give, the next one first (R19, R80; log entry 1). -/
  pending : List (BitVec 64)
  /-- The MODEL's own: the answer to the last command, none before the first (R82; log entry 2). -/
  response : Option Response
deriving DecidableEq, Repr

/-- Why the machine stops. No command stops on every path. -/
inductive Fault where
  /-- Raised by `KEYGEN` when a rejection loop of its key schedule never ends: it "never completes", gives no response, and
  the block takes no further command (spec/41_prng_keyschedule.md R129; 93_implementation_defined.md U6, `stuck`). Safe: the
  spec gives no next state there. Log entry 9. -/
  | keygenNeverEnds
  /-- Raised by `RXPUSH` in AUTO mode when `RXLEN = 2047`, where the next byte would go outside `RXBUF`. No run reaches it
  (spec/10_state.md R46 (b), spec/20_memory.md R63). Safe. Log entry 10. -/
  | rxOverrun
  /-- Raised by `RXPUSH` in AUTO mode when the body procedure would run without the bytes its rule says it needs,
  `RXLEN < max(6, BLEN)`. No run reaches it (spec/10_state.md R46 (b), spec/43_stream_cipher.md R166). Safe.
  Log entry 10. -/
  | bytesMissing
deriving DecidableEq, Repr

/-- An instruction without a meaning. No command of this block is left without one, so no arm of `exec` answers it. The
spec's own refusals (60_exceptions.md R207) are not these: they are next states with a `REF_` answer. -/
inductive Refusal where
  /-- Raised by `exec` alone for a command that the model gives no meaning yet. Safe. -/
  | notModelled (mnemonic : String)
deriving DecidableEq, Repr

/-- What a step, or a command, ends in. -/
abbrev Result := Host.Outcome State Fault Refusal

/-- The state after reset, which is also the state at power-on (R47; spec/70_reset_and_hazards.md R220, R221). `SEED`, `PT`,
`IT`, `VSEL` and `RXBUF` are "unspecified, unreadable" there: the model names zero (log entry 4). -/
def State.reset : State where
  seed := 0
  ksvalid := false
  blen := 0
  cmd := 0
  tsalt := 0
  rsalt := 0
  kval := 0
  dlen := 0
  ck := 0
  fstate := .awaitHeader
  need := 6
  err := 0
  ctrl := 0xA
  rxlen := 0
  txlen := 0
  pt := []
  itab := []
  vsel := []
  rxbuf := []
  txbuf := []
  pending := []
  response := none

end Sys2Proof.Machine
end

