-- ==== Sys2Proof/Machine/Ops.lean ====
section
/-! DEFINITION. The named operations of the machine: cells of a memory, updates of the state, the three outcomes of a command
(spec/00_scope.md R13), the fatal-error entry and the exit from it (spec/60_exceptions.md R203, R205), and taking the host's
next word. -/

namespace Sys2Proof.Machine

/-! ## Memories -/

/-- What an unlisted cell reads as: 0, which is what the spec gives `TXBUF` after a clear (R41), and the model's choice for
the cells the spec leaves unspecified and unreadable (log entry 7). -/
def unlistedCell (w : Nat) : BitVec w := 0

/-- `space[a]` (R12). -/
def Memory.read {w : Nat} : Memory w → Nat → BitVec w
  | [], _ => unlistedCell w
  | (a, x) :: rest, b => if a = b then x else Memory.read rest b

/-- `space[b] <- v` (R12), keeping the canonical form. -/
def Memory.write {w : Nat} : Memory w → Nat → BitVec w → Memory w
  | [], b, v => if v = unlistedCell w then [] else [(b, v)]
  | (a, x) :: rest, b, v =>
    if b < a then if v = unlistedCell w then (a, x) :: rest else (b, v) :: (a, x) :: rest
    else if a = b then if v = unlistedCell w then rest else (b, v) :: rest
    else (a, x) :: Memory.write rest b v

/-- The values written to `space[a]`, `space[a+1]`, ... in that order. -/
def Memory.writeList {w : Nat} : Memory w → Nat → List (BitVec w) → Memory w
  | m, _, [] => m
  | m, a, v :: vs => Memory.writeList (m.write a v) (a + 1) vs

/-- The memory whose cells `i`, `i+1`, ... hold the listed values and whose other cells are unlisted. -/
def Memory.ofListFrom {w : Nat} : Nat → List (BitVec w) → Memory w
  | _, [] => []
  | i, v :: vs => if v = unlistedCell w then Memory.ofListFrom (i + 1) vs else (i, v) :: Memory.ofListFrom (i + 1) vs

/-- The memory whose cells from 0 hold the listed values. -/
def Memory.ofList {w : Nat} (vs : List (BitVec w)) : Memory w := Memory.ofListFrom 0 vs

/-! ## Updates of the state -/

/-- The response to the command (R82). -/
def State.respond (s : State) (st : BitVec 8) (r : BitVec 32) : State := { s with response := some ⟨st, r⟩ }

/-- The words the host has yet to give. -/
def State.withPending (s : State) (q : List (BitVec 64)) : State := { s with pending := q }

/-- `CTRL <- v` (R102). -/
def State.setCtrl (s : State) (v : BitVec 4) : State := { s with ctrl := v }

/-- `RXBUF[RXLEN] <- b; RXLEN <- RXLEN + 1` (R170). -/
def State.pushByte (s : State) (b : BitVec 8) : State :=
  { s with rxbuf := s.rxbuf.write s.rxlen.toNat b, rxlen := s.rxlen + 1 }

/-- `RXLEN <- 0; FSTATE <- AwaitHeader; NEED <- 6` (R175). -/
def State.releaseFrame (s : State) : State := { s with rxlen := 0, fstate := .awaitHeader, need := 6 }

/-- `NEED <- l; FSTATE <- AwaitBody` (R171). -/
def State.awaitBody (s : State) (l : BitVec 16) : State := { s with need := l, fstate := .awaitBody }

/-- `FSTATE <- Ready` (R172). -/
def State.becomeReady (s : State) : State := { s with fstate := .ready }

/-- The seven header registers, which every header decode overwrites together (R71). -/
def State.loadHeader (s : State) (blen cmd : BitVec 16) (tsalt : BitVec 11) (rsalt : BitVec 4) (kval : BitVec 3)
    (dlen : BitVec 16) (ck : BitVec 8) : State :=
  { s with blen := blen, cmd := cmd, tsalt := tsalt, rsalt := rsalt, kval := kval, dlen := dlen, ck := ck }

/-- The receive buffer's new contents. -/
def State.setRxbuf (s : State) (m : Memory 8) : State := { s with rxbuf := m }

/-- `CK <- v` (R159). -/
def State.setCk (s : State) (v : BitVec 8) : State := { s with ck := v }

/-- The transmit buffer's new contents. -/
def State.setTxbuf (s : State) (m : Memory 8) : State := { s with txbuf := m }

/-- `TXLEN <- n` (R161, R181, R193). -/
def State.setTxlen (s : State) (n : BitVec 11) : State := { s with txlen := n }

/-- `FSTATE <- Failed; if ERR = 0: ERR <- e`, the state change of the fatal-error entry (R203). -/
def State.enterFailed (s : State) (e : BitVec 3) : State :=
  { s with fstate := .failed, err := if s.err = 0 then e else s.err }

/-- Every piece of the block's state at its reset value (R47, R101); the host's side is not the block's. For `SEED`, `PT`,
`IT`, `VSEL`, `RXBUF` see log entries 4 and 5. -/
def State.resetBlock (s : State) : State :=
  { State.reset with pending := s.pending, response := s.response }

/-! ## The outcomes of a command (R13) and its status codes (R82, R208) -/

/-- `OK`. -/
def stOk : BitVec 8 := 0x00
/-- `FATAL`. -/
def stFatal : BitVec 8 := 0x01
/-- `REF_OPCODE`. -/
def refOpcode : BitVec 8 := 0x10
/-- `REF_RESERVED`. -/
def refReserved : BitVec 8 := 0x11
/-- `REF_FAILED`. -/
def refFailed : BitVec 8 := 0x12
/-- `REF_NOKEY`. -/
def refNokey : BitVec 8 := 0x13
/-- `REF_STATE`. -/
def refState : BitVec 8 := 0x14
/-- `REF_RANGE`. -/
def refRange : BitVec 8 := 0x15

/-- `return r` (R13): status `OK`, result `r`. -/
def complete (s : State) (r : BitVec 32) : Result := .next (s.respond stOk r)

/-- `refuse(c)` (R13, R207): no state change, status `c`, result 0. -/
def refuse (s : State) (c : BitVec 8) : Result := .next (s.respond c 0)

/-- `raise Fatal(e)`, the fatal-error entry (R13, R203): every change made so far is kept, and the command completes with
status `FATAL` and `R = ERR`. -/
def raiseFatal (s : State) (e : BitVec 3) : Result :=
  .next ((s.enterFailed e).respond stFatal ((s.enterFailed e).err.setWidth 32))

/-- The exit from `Failed` (R205), which is `RESET` and nothing else (R101). -/
def leaveByReset (s : State) : Result := complete s.resetBlock 0

/-! ## The host's next word -/

/-- The word the host gives next, and the state in which the block answers it; nothing when the host gives none. -/
def fetch (s : State) : Option (BitVec 64 × State) :=
  match s.pending with
  | [] => none
  | w :: rest => some (w, s.withPending rest)

/-- The host gives `w` as its next word, in place of the one it would have given. -/
def State.offerWord (s : State) (w : BitVec 64) : State := s.withPending (w :: s.pending.tail)

end Sys2Proof.Machine
end

