-- ==== Sys2Proof/Machine/Operands.lean ====
section
/-! DEFINITION. The operand forms: bytes of wider values, the two byte orders (spec/00_scope.md R15, spec/20_memory.md R60,
R61), table indices (R37, R165) and the register selector of `HDRRD` (R105). -/

namespace Sys2Proof.Machine

/-- The two directions of a header (spec/42_header_codec.md R141): `S2C` is 0, `C2S` is 1. -/
inductive Direction where
  | s2c
  | c2s
deriving DecidableEq, Repr

/-- The direction a control bit names (R33, R141). -/
def directionOf (b : Bool) : Direction := if b then .c2s else .s2c

/-- `v[7:0]`. -/
def lowByte (v : BitVec 16) : Byte := v.extractLsb' 0 8

/-- `v[15:8]`. -/
def highByte (v : BitVec 16) : Byte := v.extractLsb' 8 8

/-- `LE16(buf, a)` (R15, R60): the low byte at `a`, the high byte at `a+1`. -/
def le16 (m : Memory 8) (a : Nat) : BitVec 16 := m.read (a + 1) ++ m.read a

/-- Byte `j` of a 40-bit value, `X[39-8j : 32-8j]` (R15, R61). -/
def headerByte (x : Header) (j : Nat) : Byte := x.extractLsb' (32 - 8 * j) 8

/-- `B5(X)` (R15): byte 0 holds the most significant 8 bits. -/
def b5 (x : Header) : List Byte := [headerByte x 0, headerByte x 1, headerByte x 2, headerByte x 3, headerByte x 4]

/-- `V5(b0..b4)`, the inverse of `B5` (R15). -/
def v5 (x0 x1 x2 x3 x4 : Byte) : Header := x0 ++ x1 ++ x2 ++ x3 ++ x4

/-- The flat index of slot `j` of row `r` of `PT` (R37, R165 (e)). -/
def flatIndex (r j : Nat) : Nat := r * 2048 + j

/-- The low 8 bits of a table cell, the only part of one that reaches a frame (R130 (c), R152, R153). -/
def cellByte (c : Word) : Byte := c.setWidth 8

/-- The register `HDRRD` names (R105): 0 `BLEN`, 1 `CMD`, 2 `TSALT`, 3 `RSALT`, 4 `KVAL`, 5 `DLEN`, 6 `CK`, 7 `NEED`. -/
def selectedRegister (s : State) (k : BitVec 3) : Word :=
  match k.toNat with
  | 0 => s.blen.setWidth 32
  | 1 => s.cmd.setWidth 32
  | 2 => s.tsalt.setWidth 32
  | 3 => s.rsalt.setWidth 32
  | 4 => s.kval.setWidth 32
  | 5 => s.dlen.setWidth 32
  | 6 => s.ck.setWidth 32
  | _ => s.need.setWidth 32

end Sys2Proof.Machine
end

