-- ==== Sys2Proof/Machine/Flags.lean ====
section
/-! DEFINITION. The status items and the control bits. The block has no condition codes and no arithmetic flags
(spec/10_state.md R44); what it has is `FSTATE`, `KSVALID`, `ERR`, the fields of `CTRL` (R33) and the view `STATUS` (R34). -/

namespace Sys2Proof.Machine

/-- The numeric code of `FSTATE` (R30). -/
def FState.code : FState → BitVec 2
  | .awaitHeader => 0
  | .awaitBody => 1
  | .ready => 2
  | .failed => 3

/-- `CTRL.CODEC` (R33): true for the ALT codec. -/
def State.codecAlt (s : State) : Bool := s.ctrl.getLsbD 0

/-- `CTRL.AUTO` (R33): true in AUTO mode. -/
def State.auto (s : State) : Bool := s.ctrl.getLsbD 1

/-- `CTRL.TXDIR` (R33). -/
def State.txdir (s : State) : Direction := directionOf (s.ctrl.getLsbD 2)

/-- `CTRL.RXDIR` (R33). -/
def State.rxdir (s : State) : Direction := directionOf (s.ctrl.getLsbD 3)

/-- The block is idle (R102): `FSTATE = AwaitHeader and RXLEN = 0 and TXLEN = 0`. -/
def State.idle (s : State) : Bool := s.fstate == .awaitHeader && s.rxlen == 0 && s.txlen == 0

/-- The view `STATUS` (R34, R104): `FSTATE | KSVALID << 2 | ERR << 4 | RXLEN << 8 | TXLEN << 20`. -/
def State.statusWord (s : State) : Word :=
  s.fstate.code.setWidth 32 ||| (BitVec.ofBool s.ksvalid).setWidth 32 <<< 2 ||| s.err.setWidth 32 <<< 4 |||
    s.rxlen.setWidth 32 <<< 8 ||| s.txlen.setWidth 32 <<< 20

/-- `PLEN = max(0, DLEN - 6)` (R174). -/
def State.payloadLength (s : State) : Nat := s.dlen.toNat - 6

end Sys2Proof.Machine
end

