-- ==== Sys2Proof/Machine/Control.lean ====
section
/-! DEFINITION. Control, status and table-read commands: spec/40_control_status.md R100 to R109. -/

namespace Sys2Proof.Machine

/-- `NOP` (R100). -/
def execNop (s : State) : Result := complete s 0

/-- `RESET` (R101). -/
def execReset (s : State) : Result := leaveByReset s

/-- `CTRLWR` (R102). -/
def execCtrlwr (value : BitVec 4) (s : State) : Result :=
  if s.fstate = .failed then refuse s refFailed
  else if !s.idle then refuse s refState
  else complete (s.setCtrl value) 0

/-- `CTRLRD` (R103). -/
def execCtrlrd (s : State) : Result := complete s (s.ctrl.setWidth 32)

/-- `STATUS` (R104). -/
def execStatus (s : State) : Result := complete s s.statusWord

/-- `HDRRD` (R105). -/
def execHdrrd (sel : BitVec 3) (s : State) : Result := complete s (selectedRegister s sel)

/-- `GETSEED` (R106): under the ALT codec 0, before the check of `KSVALID`. -/
def execGetseed (s : State) : Result :=
  if s.fstate = .failed then refuse s refFailed
  else if s.codecAlt then complete s 0
  else if !s.ksvalid then refuse s refNokey
  else complete s s.seed

/-- `PTRD` (R107). -/
def execPtrd (index : BitVec 15) (s : State) : Result :=
  if s.fstate = .failed then refuse s refFailed
  else if !s.ksvalid then refuse s refNokey
  else complete s (s.pt.read index.toNat)

/-- `ITRD` (R108). -/
def execItrd (index : BitVec 9) (s : State) : Result :=
  if s.fstate = .failed then refuse s refFailed
  else if !s.ksvalid then refuse s refNokey
  else complete s ((s.itab.read index.toNat).setWidth 32)

/-- `VSRD` (R109). -/
def execVsrd (index : BitVec 5) (s : State) : Result :=
  if s.fstate = .failed then refuse s refFailed
  else if !s.ksvalid then refuse s refNokey
  else if 16 < index.toNat then refuse s refRange
  else complete s ((s.vsel.read index.toNat).setWidth 32)

end Sys2Proof.Machine
end

