-- ==== Sys2Proof/Machine/HeaderCodec.lean ====
section
/-! DEFINITION. The header bit-permutation codec: spec/42_header_codec.md R140 to R147. -/

namespace Sys2Proof.Machine

/-- `canon(bl, c, t, r, k)` (R140): the fields side by side, the first in the most significant bits. -/
def canon (bl c t : BitVec 11) (r : BitVec 4) (k : BitVec 3) : Header := bl ++ c ++ t ++ r ++ k

/-- `buffer_length`, `X[39:29]` (R140). -/
def bufferLengthOf (x : Header) : BitVec 11 := x.extractLsb' 29 11

/-- `command`, `X[28:18]` (R140). -/
def commandOf (x : Header) : BitVec 11 := x.extractLsb' 18 11

/-- `table_salt`, `X[17:7]` (R140). -/
def tableSaltOf (x : Header) : BitVec 11 := x.extractLsb' 7 11

/-- `row_salt`, `X[6:3]` (R140). -/
def rowSaltOf (x : Header) : BitVec 4 := x.extractLsb' 3 4

/-- `check_value`, `X[2:0]` (R140). -/
def checkValueOf (x : Header) : BitVec 3 := x.extractLsb' 0 3

/-- The 15 chunks (R142). -/
inductive Chunk where
  | L1 | L2 | L3 | L4
  | C1 | C2 | C3 | C4
  | S1 | S2 | S3 | S4
  | R1 | R2
  | K1
deriving DecidableEq, Repr

/-- The chunk's width (R142). -/
def Chunk.width : Chunk → Nat
  | .L1 | .L2 | .L3 => 3
  | .L4 => 2
  | .C1 | .C2 | .C3 => 3
  | .C4 => 2
  | .S1 | .S2 | .S3 => 3
  | .S4 => 2
  | .R1 | .R2 => 2
  | .K1 => 3

/-- The lowest bit of the chunk's canonical position (R142). -/
def Chunk.canonLow : Chunk → Nat
  | .L1 => 37
  | .L2 => 34
  | .L3 => 31
  | .L4 => 29
  | .C1 => 26
  | .C2 => 23
  | .C3 => 20
  | .C4 => 18
  | .S1 => 15
  | .S2 => 12
  | .S3 => 9
  | .S4 => 7
  | .R1 => 5
  | .R2 => 3
  | .K1 => 0

/-- The ordering of a direction (R143, R144), first chunk in the most significant wire bits. -/
def chunkOrder : Direction → List Chunk
  | .s2c => [.L2, .S1, .C3, .K1, .L3, .S3, .C2, .S4, .C1, .R1, .L4, .R2, .L1, .S2, .C4]
  | .c2s => [.C2, .S2, .L1, .S3, .C1, .K1, .L2, .R2, .L3, .S4, .C4, .R1, .C3, .S1, .L4]

/-- The chunks laid below bit `top` in order (R61): each with the lowest bit of its wire position. -/
def layChunks (top : Nat) : List Chunk → List (Chunk × Nat)
  | [] => []
  | c :: cs => (c, top - c.width) :: layChunks (top - c.width) cs

/-- Every chunk with the lowest bit of its wire position in the direction. -/
def wirePositions (d : Direction) : List (Chunk × Nat) := layChunks 40 (chunkOrder d)

/-- `pack(d, X)` (R145): every chunk copied from its canonical to its wire position. -/
def pack (d : Direction) (x : Header) : Header :=
  (wirePositions d).foldl (fun w c => w ||| (x.extractLsb' c.1.canonLow c.1.width).setWidth 40 <<< c.2) 0

/-- `unpack(d, W)` (R146): every chunk copied from its wire to its canonical position. -/
def unpack (d : Direction) (w : Header) : Header :=
  (wirePositions d).foldl (fun x c => x ||| (w.extractLsb' c.2 c.1.width).setWidth 40 <<< c.1.canonLow) 0

/-- `SMASK(d)` (R147). -/
def saltMask : Direction → Header
  | .s2c => 0x1C01C6001C
  | .c2s => 0x1C7000301C

/-- `salt_of(d, W)` (R147): S1 ++ S2 ++ S3 ++ S4 from their wire positions. -/
def saltOf (d : Direction) (w : Header) : BitVec 11 :=
  match d with
  | .s2c => w.extractLsb' 34 3 ++ w.extractLsb' 2 3 ++ w.extractLsb' 22 3 ++ w.extractLsb' 17 2
  | .c2s => w.extractLsb' 2 3 ++ w.extractLsb' 34 3 ++ w.extractLsb' 28 3 ++ w.extractLsb' 12 2

end Sys2Proof.Machine
end

