-- ==== Sys2Proof/Machine/Cipher.lean ====
section
/-! DEFINITION. The stream cipher and the running checksum: spec/43_stream_cipher.md R150 to R161. -/

namespace Sys2Proof.Machine

/-- `fold(ck, b) = SUBST[ck ^ b]` (R150). -/
def foldByte (p : Params) (ck b : Byte) : Byte := p.subst (ck ^^^ b)

/-- `hdrck(X)` (R151): the five canonical bytes folded from `CK_INIT`, most significant first. -/
def headerChecksum (p : Params) (x : Header) : Byte := (b5 x).foldl (foldByte p) Config.ckInit

/-- `hks(t)` (R152): byte `j` is the low 8 bits of `PT[j*2048 + t]`. -/
def headerKeystream (pt : Memory 32) (t : BitVec 11) : Header :=
  v5 (cellByte (pt.read (flatIndex 0 t.toNat))) (cellByte (pt.read (flatIndex 1 t.toNat)))
    (cellByte (pt.read (flatIndex 2 t.toNat))) (cellByte (pt.read (flatIndex 3 t.toNat)))
    (cellByte (pt.read (flatIndex 4 t.toNat)))

/-- `bks(r, t, i) = PT[((r + i) & 0xF) * 2048 + ((t + i) & 0x7FF)] & 0xFF` (R153). -/
def bodyKeystream (pt : Memory 32) (r : BitVec 4) (t : BitVec 11) (i : Nat) : Byte :=
  cellByte (pt.read (flatIndex ((r.toNat + i) &&& 0xF) ((t.toNat + i) &&& 0x7FF)))

/-- `hdr_enc(d, X)` (R154): the salt's wire positions travel in clear. -/
def encodeHeader (pt : Memory 32) (d : Direction) (x : Header) : Header :=
  ((pack d x ^^^ headerKeystream pt (tableSaltOf x)) &&& ~~~ saltMask d) ||| (pack d x &&& saltMask d)

/-- `hdr_dec(d, W)` (R155). -/
def decodeHeader (pt : Memory 32) (d : Direction) (w : Header) : Header :=
  unpack d (((w ^^^ headerKeystream pt (saltOf d w)) &&& ~~~ saltMask d) ||| (w &&& saltMask d))

/-- `dechdr()` (R156); its result is `BLEN` afterwards. -/
def dechdr (p : Params) (s : State) : State :=
  let w := v5 (s.rxbuf.read 0) (s.rxbuf.read 1) (s.rxbuf.read 2) (s.rxbuf.read 3) (s.rxbuf.read 4)
  let x := decodeHeader s.pt s.rxdir w
  let cmd := (commandOf x).setWidth 16
  let dlen := BitVec.ofNat 16 ((bufferLengthOf x).toNat - (checkValueOf x).toNat)
  (s.loadHeader ((bufferLengthOf x).setWidth 16) cmd (tableSaltOf x) (rowSaltOf x) (checkValueOf x) dlen
      (headerChecksum p x)).setRxbuf
    (s.rxbuf.writeList 0 [lowByte dlen, highByte dlen, lowByte cmd, highByte cmd, 0])

/-- The loop of `decbody()` (R159) over `n` bytes from offset `i`: the buffer and the checksum after it. -/
def decryptBytes (p : Params) (pt : Memory 32) (r : BitVec 4) (t : BitVec 11) : Nat → Nat → Memory 8 → Byte → Memory 8 × Byte
  | 0, _, m, ck => (m, ck)
  | n + 1, i, m, ck =>
    let plain := m.read i ^^^ bodyKeystream pt r t i
    decryptBytes p pt r t n (i + 1) (m.write i plain) (foldByte p ck plain)

/-- `decbody()` (R159): the state after it, and whether the checksum matched. -/
def decbody (p : Params) (s : State) : State × Bool :=
  let o := decryptBytes p s.pt s.rsalt s.tsalt (s.blen.toNat - 6) 6 s.rxbuf s.ck
  ((s.setRxbuf o.1).setCk o.2, o.2 == o.1.read 5)

/-- The loop of `encrypt` (R161) over `n` bytes from offset `i`: the buffer and the checksum after it. -/
def encryptBytes (p : Params) (pt : Memory 32) (r : BitVec 4) (t : BitVec 11) : Nat → Nat → Memory 8 → Byte → Memory 8 × Byte
  | 0, _, m, ck => (m, ck)
  | n + 1, i, m, ck =>
    let plain := m.read i
    encryptBytes p pt r t n (i + 1) (m.write i (plain ^^^ bodyKeystream pt r t i)) (foldByte p ck plain)

/-- `encrypt(size, c)` (R160, R161); its result is `size`. -/
def encryptFrame (p : Params) (size c : BitVec 11) (s : State) : State :=
  let x := canon size c Config.encTsalt Config.encRsalt Config.encKval
  let ck := headerChecksum p x
  let m := (s.txbuf.writeList 0 (b5 (encodeHeader s.pt s.txdir x))).write 5 ck
  let o := encryptBytes p s.pt Config.encRsalt Config.encTsalt (size.toNat - 6) 6 m ck
  (s.setTxbuf (o.1.write 5 o.2)).setTxlen size

/-- The bytes a body procedure needs, `RXLEN >= max(6, BLEN)` (R159, R192). -/
def State.bodyBuffered (s : State) : Bool := decide (max 6 s.blen.toNat ≤ s.rxlen.toNat)

/-- `DECHDR` (R156) under a configuration. -/
def dechdrCommand (p : Params) (s : State) : Result :=
  if s.fstate = .failed then refuse s refFailed
  else if !s.ksvalid then refuse s refNokey
  else if s.auto then refuse s refState
  else if s.rxlen.toNat < 6 then refuse s refState
  else complete (dechdr p s) ((dechdr p s).blen.setWidth 32)

/-- `DECBODY` (R159) under a configuration. -/
def decbodyCommand (p : Params) (s : State) : Result :=
  if s.fstate = .failed then refuse s refFailed
  else if !s.ksvalid then refuse s refNokey
  else if s.auto then refuse s refState
  else if !s.bodyBuffered then refuse s refState
  else complete (decbody p s).1 (if (decbody p s).2 then 1 else 0)

/-- `ENCRYPT` (R161) under a configuration. -/
def encryptCommand (p : Params) (size c : BitVec 11) (s : State) : Result :=
  if s.fstate = .failed then refuse s refFailed
  else if !s.ksvalid then refuse s refNokey
  else if s.txlen ≠ 0 then refuse s refState
  else if size.toNat < 6 then refuse s refRange
  else complete (encryptFrame p size c s) (size.setWidth 32)

/-- `DECHDR` (R156). -/
def execDechdr (s : State) : Result := dechdrCommand Config.hardware s

/-- `DECBODY` (R159). -/
def execDecbody (s : State) : Result := decbodyCommand Config.hardware s

/-- `ENCRYPT` (R161). -/
def execEncrypt (size command : BitVec 11) (s : State) : Result := encryptCommand Config.hardware size command s

end Sys2Proof.Machine
end

