-- ==== Sys2Proof/Machine/AltCodec.lean ====
section
/-! DEFINITION. The alternate codec: spec/45_alt_codec.md R190 to R196. -/

namespace Sys2Proof.Machine

/-- `n` bytes from offset `i`, each XORed with `x` (R191, R192, R193). -/
def xorBytes (x : Byte) : Nat → Nat → Memory 8 → Memory 8
  | 0, _, m => m
  | n + 1, i, m => xorBytes x n (i + 1) (m.write i (m.read i ^^^ x))

/-- `adechdr()` (R191); its result is `BLEN` afterwards. -/
def adechdr (p : Params) (s : State) : State :=
  let l := le16 s.rxbuf 0
  let m := xorBytes p.altx 4 2 s.rxbuf
  (s.loadHeader l (le16 m 2) 0 0 0 l 0).setRxbuf m

/-- `adecbody()` (R192), over the range `[6, BLEN-2)`; its result is always 1. -/
def adecbody (p : Params) (s : State) : State := s.setRxbuf (xorBytes p.altx (s.blen.toNat - 2 - 6) 6 s.rxbuf)

/-- `aencrypt(size)` (R193); its result is `size`. -/
def aencryptFrame (p : Params) (size : BitVec 11) (s : State) : State :=
  let m := s.txbuf.writeList 0 [lowByte (size.setWidth 16), highByte (size.setWidth 16)]
  (s.setTxbuf (xorBytes p.altx (size.toNat - 2 - 6) 6 (xorBytes p.altx 4 2 m))).setTxlen size

/-- `ADECHDR` (R191) under a configuration. -/
def adechdrCommand (p : Params) (s : State) : Result :=
  if s.fstate = .failed then refuse s refFailed
  else if s.auto then refuse s refState
  else if s.rxlen.toNat < 6 then refuse s refState
  else complete (adechdr p s) ((adechdr p s).blen.setWidth 32)

/-- `ADECBODY` (R192) under a configuration. -/
def adecbodyCommand (p : Params) (s : State) : Result :=
  if s.fstate = .failed then refuse s refFailed
  else if s.auto then refuse s refState
  else if !s.bodyBuffered then refuse s refState
  else complete (adecbody p s) 1

/-- `AENCRYPT` (R193) under a configuration. -/
def aencryptCommand (p : Params) (size : BitVec 11) (s : State) : Result :=
  if s.fstate = .failed then refuse s refFailed
  else if s.txlen ≠ 0 then refuse s refState
  else if size.toNat < 6 then refuse s refRange
  else complete (aencryptFrame p size s) (size.setWidth 32)

/-- `ADECHDR` (R191). -/
def execAdechdr (s : State) : Result := adechdrCommand Config.hardware s

/-- `ADECBODY` (R192). -/
def execAdecbody (s : State) : Result := adecbodyCommand Config.hardware s

/-- `AENCRYPT` (R193). -/
def execAencrypt (size : BitVec 11) (s : State) : Result := aencryptCommand Config.hardware size s

end Sys2Proof.Machine
end

