-- ==== Sys2Proof/Machine/Framer.lean ====
section
/-! DEFINITION. The packet framer, receive and send sides: spec/44_framer.md R170 to R182. -/

namespace Sys2Proof.Machine

/-! ## Receive side -/

/-- The header procedure of the codec that `CTRL.CODEC` names (R171). -/
def runHeader (p : Params) (s : State) : State := if s.codecAlt then adechdr p s else dechdr p s

/-- The body procedure of the codec that `CTRL.CODEC` names, and whether its result is 1 (R172). -/
def runBody (p : Params) (s : State) : State × Bool := if s.codecAlt then (adecbody p s, true) else decbody p s

/-- The answer of an `RXPUSH` that raised nothing: `return FSTATE` (R170). -/
def pushDone (s : State) : Result := complete s (s.fstate.code.setWidth 32)

/-- The body transition, second half of `advance()` (R172), and the end of the command. For the fault see log entry 10. -/
def bodyTransition (p : Params) (s : State) : Result :=
  if s.fstate = .awaitBody ∧ s.need.toNat ≤ s.rxlen.toNat then
    if s.bodyBuffered then
      if (runBody p s).2 then pushDone (runBody p s).1.becomeReady else raiseFatal (runBody p s).1 3
    else .fault .bytesMissing
  else pushDone s

/-- `advance()` (R171, then R172): the header transition, then the body transition in the same command. -/
def advance (p : Params) (s : State) : Result :=
  if s.fstate = .awaitHeader ∧ 6 ≤ s.rxlen.toNat then
    if (runHeader p s).blen.toNat < 6 ∨ Config.bufcap < (runHeader p s).blen.toNat then raiseFatal (runHeader p s) 2
    else bodyTransition p ((runHeader p s).awaitBody (runHeader p s).blen)
  else bodyTransition p s

/-- `RXPUSH` (R170) under a configuration. For the fault see log entry 10. -/
def rxpushCommand (p : Params) (byte : Byte) (s : State) : Result :=
  if s.fstate = .failed then refuse s refFailed
  else if s.auto then
    if !s.codecAlt && !s.ksvalid then refuse s refNokey
    else if s.fstate = .ready then refuse s refState
    else if Config.bufcap ≤ s.rxlen.toNat then .fault .rxOverrun
    else advance p (s.pushByte byte)
  else if Config.bufcap ≤ s.rxlen.toNat then refuse s refRange
  else pushDone (s.pushByte byte)

/-- `RXPUSH` (R170). -/
def execRxpush (byte : Byte) (s : State) : Result := rxpushCommand Config.hardware byte s

/-- `RXRD` (R173). -/
def execRxrd (addr : BitVec 11) (s : State) : Result :=
  if s.fstate = .failed then refuse s refFailed
  else if s.rxlen.toNat ≤ addr.toNat then refuse s refRange
  else complete s ((s.rxbuf.read addr.toNat).setWidth 32)

/-- `RXPKT` (R174): `CMD | (PLEN << 16)`. -/
def execRxpkt (s : State) : Result :=
  if s.fstate = .failed then refuse s refFailed
  else if s.auto ∧ s.fstate ≠ .ready then refuse s refState
  else complete s (s.cmd.setWidth 32 ||| BitVec.ofNat 32 s.payloadLength <<< 16)

/-- `RXNEXT` (R175). -/
def execRxnext (s : State) : Result :=
  if s.fstate = .failed then refuse s refFailed
  else if s.auto ∧ s.fstate ≠ .ready then refuse s refState
  else complete s.releaseFrame 0

/-- `LINKDOWN` (R176): `raise Fatal(1)`. -/
def execLinkdown (s : State) : Result :=
  if s.fstate = .failed then refuse s refFailed
  else raiseFatal s 1

/-! ## Send side -/

/-- `TXWR` (R178). -/
def execTxwr (addr : BitVec 11) (byte : Byte) (s : State) : Result :=
  if s.fstate = .failed then refuse s refFailed
  else if s.txlen ≠ 0 then refuse s refState
  else if Config.bufcap ≤ addr.toNat then refuse s refRange
  else complete (s.setTxbuf (s.txbuf.write addr.toNat byte)) 0

/-- The padding `TXSEND` adds (R179): `ENC_KVAL` bytes for the stream codec, none for the ALT codec. -/
def State.padding (s : State) : Nat := if s.codecAlt then 0 else Config.encKval.toNat

/-- The frame's size for a payload of `n` bytes, `6 + n + pad` (R179). -/
def State.frameSize (s : State) (n : BitVec 11) : Nat := 6 + n.toNat + s.padding

/-- `TXSEND`'s plain frame (R179; spec/20_memory.md R68 (a)): the prologue, and padding of zero after the payload. -/
def plainFrame (n c : BitVec 11) (s : State) : State :=
  let size := BitVec.ofNat 16 (s.frameSize n)
  let id := c.setWidth 16
  s.setTxbuf
    ((s.txbuf.writeList 0 [lowByte size, highByte size, lowByte id, highByte id, 0, 0]).writeList (6 + n.toNat)
      (List.replicate s.padding 0))

/-- `TXSEND` (R179) under a configuration. -/
def txsendCommand (p : Params) (n c : BitVec 11) (s : State) : Result :=
  if s.fstate = .failed then refuse s refFailed
  else if !s.codecAlt && !s.ksvalid then refuse s refNokey
  else if s.txlen ≠ 0 then refuse s refState
  else if Config.bufcap < s.frameSize n then refuse s refRange
  else
    let size := BitVec.ofNat 11 (s.frameSize n)
    complete (if s.codecAlt then aencryptFrame p size (plainFrame n c s) else encryptFrame p size c (plainFrame n c s))
      (size.setWidth 32)

/-- `TXSEND` (R179). -/
def execTxsend (n command : BitVec 11) (s : State) : Result := txsendCommand Config.hardware n command s

/-- `TXRD` (R180). -/
def execTxrd (addr : BitVec 11) (s : State) : Result :=
  if s.fstate = .failed then refuse s refFailed
  else if Config.bufcap ≤ addr.toNat then refuse s refRange
  else complete s ((s.txbuf.read addr.toNat).setWidth 32)

/-- `TXDONE` (R181): the lock is released and every cell of `TXBUF` cleared. -/
def execTxdone (s : State) : Result :=
  if s.fstate = .failed then refuse s refFailed
  else if s.txlen = 0 then refuse s refState
  else complete ((s.setTxlen 0).setTxbuf []) 0

end Sys2Proof.Machine
end

