-- ==== Sys2Proof/Machine/KeySchedule.lean ====
section
/-! DEFINITION. The pseudo-random generator and the key schedule: spec/41_prng_keyschedule.md R120 to R129. -/

namespace Sys2Proof.Machine

/-- The four variants of the generator (R120). -/
inductive Variant where
  | A
  | B
  | C
  | D
deriving DecidableEq, Repr

/-- A generator: one state per variant (R121). -/
structure Generator where
  a : Word
  b : Word
  c : Word
  d : Word
deriving DecidableEq, Repr

/-- `new(v)`: all four states equal to `v` (R121). -/
def newGenerator (v : Word) : Generator := ⟨v, v, v, v⟩

/-- `draw(G, X)` (R121): the output, and the generator with variant X's state replaced. -/
def draw (p : Params) (g : Generator) : Variant → Word × Generator
  | .A => ((p.nextA g.a).2, { g with a := (p.nextA g.a).1 })
  | .B => ((p.nextB g.b).2, { g with b := (p.nextB g.b).1 })
  | .C => ((p.nextC g.c).2, { g with c := (p.nextC g.c).1 })
  | .D => ((p.nextD g.d).2, { g with d := (p.nextD g.d).1 })

/-- `var(q)` (R123): 0, 1, 2, 3 name A, B, C, D. -/
def variantOf (q : BitVec 2) : Variant :=
  match q.toNat with
  | 0 => .A
  | 1 => .B
  | 2 => .C
  | _ => .D

/-- `(v & 0xFF) mod 4` (R125). -/
def selectorOf (v : Word) : BitVec 2 := ((v &&& 0xFF#32) % 4#32).setWidth 2

/-- Step 3 of the key schedule (R125): `n` draws of variant B, each made a selector, and the generator after them. -/
def drawSelectors (p : Params) : Nat → Generator → List (BitVec 2) × Generator
  | 0, g => ([], g)
  | n + 1, g =>
    let o := draw p g .B
    let rest := drawSelectors p n o.2
    (selectorOf o.1 :: rest.1, rest.2)

/-- One `repeat` loop of R126 or R127: draw from `x` and reduce until the value is not among those already stored; within
`n` draws, nothing otherwise. A rejected draw has advanced the generator. -/
def drawFresh (p : Params) (x : Variant) (reduce : Word → Word) (stored : List Word) : Nat → Generator → Option (Word × Generator)
  | 0, _ => none
  | n + 1, g =>
    let o := draw p g x
    if reduce o.1 ∈ stored then drawFresh p x reduce stored n o.2 else some (reduce o.1, o.2)

/-- How many draws a loop is given: a variant's state has 2^32 values and the stored values do not change within a loop, so a
loop that has not ended after so many draws has come back to a state it was in, and never ends (R129; log entry 9). -/
def drawBound : Nat := 2 ^ 32

/-- `n` further slots of a table whose stored values are `stored`, latest first (R126, R127). -/
def fillSlots (p : Params) (x : Variant) (reduce : Word → Word) : Nat → Generator → List Word → Option (List Word × Generator)
  | 0, g, stored => some (stored, g)
  | n + 1, g, stored =>
    match drawFresh p x reduce stored drawBound g with
    | none => none
    | some (v, g') => fillSlots p x reduce n g' (v :: stored)

/-- Step 4 (R126): rows of 2048 slots, each drawn from its own variant, every value checked against the whole table's filled
prefix. -/
def fillRows (p : Params) : List Variant → Generator → List Word → Option (List Word × Generator)
  | [], g, stored => some (stored, g)
  | x :: xs, g, stored =>
    match fillSlots p x id 2048 g stored with
    | none => none
    | some (stored', g') => fillRows p xs g' stored'

/-- What `KS(seed)` is (R127): the selectors, the permutation table and the index table. -/
structure KeyTables where
  vsel : Memory 2
  pt : Memory 32
  itab : Memory 16
deriving DecidableEq, Repr

/-- `KS(seed)` (R124 to R127), none where a loop never ends (R129). -/
def ks (p : Params) (seed : Word) : Option KeyTables :=
  let m := (draw p (newGenerator seed) .D).1
  let sel := drawSelectors p 17 (newGenerator m)
  match fillRows p ((sel.1.take 16).map variantOf) sel.2 [] with
  | none => none
  | some (pt, g) =>
    match fillSlots p (variantOf (sel.1.getD 16 0)) (· &&& 0x7FF#32) 512 g [] with
    | none => none
    | some (itab, _) =>
      some ⟨Memory.ofList sel.1, Memory.ofList pt.reverse, Memory.ofList (itab.reverse.map (BitVec.setWidth 16))⟩

/-- `(VSEL, PT, IT) <- KS(D); SEED <- D; KSVALID <- 1` (R128). -/
def State.loadKeys (s : State) (seed : Word) (k : KeyTables) : State :=
  { s with seed := seed, ksvalid := true, vsel := k.vsel, pt := k.pt, itab := k.itab }

/-- `KEYGEN` (R128) under a configuration. -/
def keygen (p : Params) (seed : Word) (s : State) : Result :=
  if s.fstate = .failed then refuse s refFailed
  else if s.ksvalid then refuse s refState
  else
    match ks p seed with
    | none => .fault .keygenNeverEnds
    | some k => complete (s.loadKeys seed k) 0

/-- `KEYGEN` (R128). -/
def execKeygen (seed : Word) (s : State) : Result := keygen Config.hardware seed s

end Sys2Proof.Machine
end

