-- ==== Sys2Proof/Machine/Dispatch.lean ====
section
/-! DEFINITION. The meaning of every command: one arm per constructor of `Instr`. -/

namespace Sys2Proof.Machine

/-- A command executed in a state. -/
def exec (i : Instr) (s : State) : Host.Outcome State Fault Refusal :=
  match i with
  | .nop => Sys2Proof.Machine.execNop s
  | .reset => Sys2Proof.Machine.execReset s
  | .ctrlwr value => Sys2Proof.Machine.execCtrlwr value s
  | .ctrlrd => Sys2Proof.Machine.execCtrlrd s
  | .status => Sys2Proof.Machine.execStatus s
  | .keygen seed => Sys2Proof.Machine.execKeygen seed s
  | .getseed => Sys2Proof.Machine.execGetseed s
  | .ptrd index => Sys2Proof.Machine.execPtrd index s
  | .itrd index => Sys2Proof.Machine.execItrd index s
  | .vsrd index => Sys2Proof.Machine.execVsrd index s
  | .hdrrd sel => Sys2Proof.Machine.execHdrrd sel s
  | .rxpush byte => Sys2Proof.Machine.execRxpush byte s
  | .rxrd addr => Sys2Proof.Machine.execRxrd addr s
  | .dechdr => Sys2Proof.Machine.execDechdr s
  | .decbody => Sys2Proof.Machine.execDecbody s
  | .rxpkt => Sys2Proof.Machine.execRxpkt s
  | .rxnext => Sys2Proof.Machine.execRxnext s
  | .linkdown => Sys2Proof.Machine.execLinkdown s
  | .adechdr => Sys2Proof.Machine.execAdechdr s
  | .adecbody => Sys2Proof.Machine.execAdecbody s
  | .txwr addr byte => Sys2Proof.Machine.execTxwr addr byte s
  | .txrd addr => Sys2Proof.Machine.execTxrd addr s
  | .encrypt size command => Sys2Proof.Machine.execEncrypt size command s
  | .aencrypt size => Sys2Proof.Machine.execAencrypt size s
  | .txsend n command => Sys2Proof.Machine.execTxsend n command s
  | .txdone => Sys2Proof.Machine.execTxdone s

end Sys2Proof.Machine
end

