-- ==== Sys2Proof/Machine/Decoding.lean ====
section
/-! DEFINITION. The answer to one command word: spec/30_encoding.md R80, R85. -/

namespace Sys2Proof.Machine

/-- The refusal a word that is no command is answered with (R85). -/
def refusalOf : DecodeError → BitVec 8
  | .illegal => refOpcode
  | .reserved => refReserved

/-- R80, R85: the block decodes the word and performs its operation to completion, or refuses it with no state change. -/
def answerWord (w : BitVec 64) (s : State) : Result :=
  match decode w with
  | .ok i => exec i s
  | .error e => refuse s (refusalOf e)

end Sys2Proof.Machine
end

