-- ==== Sys2Proof/Machine/Step.lean ====
section
/-! DEFINITION. One step of the machine: the block answers the next word the host gives (spec/00_scope.md R19,
spec/30_encoding.md R80). -/

namespace Sys2Proof.Machine

/-- The block takes the host's next word and answers it. When the host gives none, nothing changes: the block "never acts
except in response to a command" (spec/60_exceptions.md R206; log entry 3). -/
def step (s : State) : Host.Outcome State Fault Refusal :=
  match fetch s with
  | none => .next s
  | some (w, t) => answerWord w t

/-- `s` in which the next word the host gives is the one whose `nbits` low bits are `w`, every bit above being 0. -/
def State.withFetchWord (s : State) (nbits w : Nat) : State := s.offerWord (BitVec.ofNat 64 (w % 2 ^ nbits))

end Sys2Proof.Machine
end

