-- ==== Sys2Proof/Safety.lean ====
section
/-! DEFINITION. What the statements are said in: the invariants of spec/10_state.md R46 and of the model's memories, the states
a host can bring the block to, the bytes and checksums of a buffer, and the outputs of the generator's variants. -/

namespace Sys2Proof.Safety

open Sys2Proof.Machine

/-- Every memory of the state is in its canonical form. -/
def MemoriesCanonical (s : State) : Prop := s.pt.wf ∧ s.itab.wf ∧ s.vsel.wf ∧ s.rxbuf.wf ∧ s.txbuf.wf

/-- Every listed cell of the memory is one of its first `n`. -/
def WithinCells {w : Nat} (m : Memory w) (n : Nat) : Prop := ∀ c ∈ m, c.1 < n

/-- No memory lists a cell that spec/20_memory.md R66 does not give its space. -/
def CellsExist (s : State) : Prop :=
  WithinCells s.pt 32768 ∧ WithinCells s.itab 512 ∧ WithinCells s.vsel 17 ∧ WithinCells s.rxbuf 2047 ∧
    WithinCells s.txbuf 2047

/-- R46 (b): in AUTO mode, what the framer's state says of the lengths. That `DLEN <= BLEN` holds in `AwaitBody` too is added
(DEDUCED: the header decode that enters `AwaitBody` sets both, R156, R191): without it the `Ready` clause is not kept. -/
def AutoFraming (s : State) : Prop :=
  (s.fstate = .awaitHeader → s.rxlen.toNat < 6 ∧ s.need = 6) ∧
  (s.fstate = .awaitBody → 6 ≤ s.rxlen.toNat ∧ s.rxlen.toNat < s.need.toNat ∧ s.need.toNat ≤ 2047 ∧ s.need = s.blen ∧
    s.dlen.toNat ≤ s.blen.toNat) ∧
  (s.fstate = .ready → s.rxlen.toNat = s.need.toNat ∧ s.need = s.blen ∧ 6 ≤ s.blen.toNat ∧ s.blen.toNat ≤ 2047 ∧
    s.dlen.toNat ≤ s.blen.toNat)

/-- R46 (c): in manual mode. -/
def ManualFraming (s : State) : Prop := (s.fstate = .awaitHeader ∨ s.fstate = .failed) ∧ s.need = 6

/-- R46 (e), first part: the tables are `KS(SEED)`. -/
def TablesAreOfSeed (s : State) : Prop := ks Config.hardware s.seed = some ⟨s.vsel, s.pt, s.itab⟩

/-- The invariants of R46 (a) to (e), and those of the model's memories. (`RXLEN <= 2047` and `TXLEN <= 2047` of (a) hold of
every 11-bit value.) R46 (f) speaks of a change and is a statement of its own. -/
structure Invariant (s : State) : Prop where
  canonical : MemoriesCanonical s
  cells : CellsExist s
  txlen : s.txlen = 0 ∨ 6 ≤ s.txlen.toNat
  autoMode : s.ctrl.getLsbD 1 = true → AutoFraming s
  manualMode : s.ctrl.getLsbD 1 = false → ManualFraming s
  failedIff : s.fstate = .failed ↔ s.err ≠ 0
  errRange : s.err.toNat ≤ 3
  keys : s.ksvalid = true → TablesAreOfSeed s

/-- The states a host can bring the block to from reset, whatever words it gives (spec/70_reset_and_hazards.md R220). -/
inductive Reachable : State → Prop where
  | start (q : List (BitVec 64)) : Reachable (State.reset.withPending q)
  | move {s t : State} : Reachable s → step s = .next t → Reachable t

/-- The checksum chain from `ck` over the bytes, each folded by `SUBST[ck ^ b]` (spec/43_stream_cipher.md R150). -/
def checksumFrom (ck : Byte) (bs : List Byte) : Byte := bs.foldl (fun c b => Config.subst (c ^^^ b)) ck

/-- The bytes `space[a .. a+n)` of a buffer. -/
def bytesOf (m : Memory 8) (a n : Nat) : List Byte := (List.range' a n).map m.read

/-- The draws of a list of variants from a generator, each variant with its output (spec/41_prng_keyschedule.md R121). -/
def drawAll (p : Params) : Generator → List Variant → List (Variant × Word)
  | _, [] => []
  | g, x :: xs => (x, (draw p g x).1) :: drawAll p (draw p g x).2 xs

/-- The configuration function of a variant (spec/41_prng_keyschedule.md R120). -/
def variantNext (p : Params) : Variant → Word → Word × Word
  | .A => p.nextA
  | .B => p.nextB
  | .C => p.nextC
  | .D => p.nextD

/-- The state of variant `x` of a generator `new(v)` after `n` draws of that variant (spec/41_prng_keyschedule.md R121, R122). -/
def variantState (p : Params) (x : Variant) (v : Word) : Nat → Word
  | 0 => v
  | n + 1 => (variantNext p x (variantState p x v n)).1

/-- Output `n`, counted from 0, of variant `x` of a generator `new(v)` (spec/41_prng_keyschedule.md R121, R122). -/
def variantOutput (p : Params) (x : Variant) (v : Word) (n : Nat) : Word := (variantNext p x (variantState p x v n)).2

/-- Cell `f` of a table took draw `n` of a stream of draws used from draw `start` on: it holds that draw, which no cell before
it holds, while each earlier draw of the stream is held by a cell before it (spec/41_prng_keyschedule.md R126, R127). There is
at most one such `n`. -/
def TakesDraw {w : Nat} (draws : Nat → BitVec w) (start : Nat) (cell : Nat → BitVec w) (f n : Nat) : Prop :=
  start ≤ n ∧ cell f = draws n ∧ (∀ g, g < f → cell g ≠ draws n) ∧ ∀ e, start ≤ e → e < n → ∃ g, g < f ∧ cell g = draws e

end Sys2Proof.Safety
end

