-- ==== Sys2Proof/WellFormed.lean ====
section
/-! DEFINITION. Which command words are well-formed: the match and mask numbers of spec/opcode_table.json, row by row.
The operands of an `Instr` carry their widths in their types, so what can be ill-formed is a word: an undefined operation code
or a bit set that its row requires to be zero (spec/30_encoding.md R83, R84, R85). Sys2Proof/Decode.lean does not use this
table: it decodes from the fields and widths of R81 and R84, and that the two agree is a statement. -/

namespace Sys2Proof

/-- One row of spec/opcode_table.json: a word `w` is a command of the row when `w &&& mask = code` (R84). -/
structure TableRow where
  code : Command
  mask : Command
deriving DecidableEq, Repr

/-- The 26 rows of spec/opcode_table.json, in its order. -/
def opcodeTable : List TableRow :=
  [ ⟨0x0000000000000000#64, 0xFFFFFFFFFFFFFFFF#64⟩,  -- NOP
    ⟨0x0100000000000000#64, 0xFFFFFFFFFFFFFFFF#64⟩,  -- RESET
    ⟨0x0200000000000000#64, 0xFFFFFFFFFFFFFFF0#64⟩,  -- CTRLWR
    ⟨0x0300000000000000#64, 0xFFFFFFFFFFFFFFFF#64⟩,  -- CTRLRD
    ⟨0x0400000000000000#64, 0xFFFFFFFFFFFFFFFF#64⟩,  -- STATUS
    ⟨0x0500000000000000#64, 0xFFFFFFFF00000000#64⟩,  -- KEYGEN
    ⟨0x0600000000000000#64, 0xFFFFFFFFFFFFFFFF#64⟩,  -- GETSEED
    ⟨0x0700000000000000#64, 0xFFFFFFFFFFFF8000#64⟩,  -- PTRD
    ⟨0x0800000000000000#64, 0xFFFFFFFFFFFFFE00#64⟩,  -- ITRD
    ⟨0x0900000000000000#64, 0xFFFFFFFFFFFFFFE0#64⟩,  -- VSRD
    ⟨0x0A00000000000000#64, 0xFFFF8FFFFFFFFFFF#64⟩,  -- HDRRD
    ⟨0x1000000000000000#64, 0xFFFFFFFFFFFFFF00#64⟩,  -- RXPUSH
    ⟨0x1100000000000000#64, 0xFF800FFFFFFFFFFF#64⟩,  -- RXRD
    ⟨0x1200000000000000#64, 0xFFFFFFFFFFFFFFFF#64⟩,  -- DECHDR
    ⟨0x1300000000000000#64, 0xFFFFFFFFFFFFFFFF#64⟩,  -- DECBODY
    ⟨0x1400000000000000#64, 0xFFFFFFFFFFFFFFFF#64⟩,  -- RXPKT
    ⟨0x1500000000000000#64, 0xFFFFFFFFFFFFFFFF#64⟩,  -- RXNEXT
    ⟨0x1600000000000000#64, 0xFFFFFFFFFFFFFFFF#64⟩,  -- LINKDOWN
    ⟨0x1700000000000000#64, 0xFFFFFFFFFFFFFFFF#64⟩,  -- ADECHDR
    ⟨0x1800000000000000#64, 0xFFFFFFFFFFFFFFFF#64⟩,  -- ADECBODY
    ⟨0x2000000000000000#64, 0xFF800FFFFFFFFF00#64⟩,  -- TXWR
    ⟨0x2100000000000000#64, 0xFF800FFFFFFFFFFF#64⟩,  -- TXRD
    ⟨0x2200000000000000#64, 0xFF800800FFFFFFFF#64⟩,  -- ENCRYPT
    ⟨0x2300000000000000#64, 0xFF800FFFFFFFFFFF#64⟩,  -- AENCRYPT
    ⟨0x2400000000000000#64, 0xFF800800FFFFFFFF#64⟩,  -- TXSEND
    ⟨0x2500000000000000#64, 0xFFFFFFFFFFFFFFFF#64⟩ ]  -- TXDONE

/-- The word is a command of the row. -/
def TableRow.admits (r : TableRow) (w : Command) : Bool := w &&& r.mask == r.code

/-- The word is a command of some row of the table (R85, verdict 3). -/
def Command.wellFormed (w : Command) : Bool := opcodeTable.any (·.admits w)

end Sys2Proof
end

