-- ==== Sys2Proof/Certificates/Slice0/Obligations.lean ====
section
/-! DEFINITION. The statements about the machine, for the provers. A next state is written as the state before with the fields
the command writes, so that every such statement is also the command's frame: every field not named is unchanged. A memory that
a command writes is said cell by cell, through the read of one cell. Where a statement asks that a memory be canonical
(`Memory.wf`), `InvariantKeptByEveryStep` says that every reachable state's memories are. -/

open Sys2Proof Sys2Proof.Machine Sys2Proof.Safety

/-! ## What the statements are said with -/

/-- The 26 values of `OP` (spec/30_encoding.md R84, R85). -/
def definedOpcodes : List Nat :=
  [0x00, 0x01, 0x02, 0x03, 0x04, 0x05, 0x06, 0x07, 0x08, 0x09, 0x0A, 0x10, 0x11, 0x12, 0x13, 0x14, 0x15, 0x16, 0x17, 0x18,
   0x20, 0x21, 0x22, 0x23, 0x24, 0x25]

/-- spec/42_header_codec.md R143: which bits of `X` the bits `W[39]`, `W[38]`, ..., `W[0]` are, S2C. -/
def s2cWireBits : List Nat :=
  [36, 35, 34, 17, 16, 15, 22, 21, 20, 2, 1, 0, 33, 32, 31, 11, 10, 9, 25, 24, 23, 8, 7, 28, 27, 26, 6, 5, 30, 29, 4, 3, 39,
   38, 37, 14, 13, 12, 19, 18]

/-- spec/42_header_codec.md R144: the same, C2S. -/
def c2sWireBits : List Nat :=
  [25, 24, 23, 14, 13, 12, 39, 38, 37, 11, 10, 9, 28, 27, 26, 2, 1, 0, 36, 35, 34, 4, 3, 33, 32, 31, 8, 7, 19, 18, 6, 5, 22,
   21, 20, 17, 16, 15, 30, 29]

/-- The state after a command that answers `ST` and `R` and, but for the response, left `s`. -/
def answered (s : State) (st : BitVec 8) (r : BitVec 32) : State := { s with response := some ⟨st, r⟩ }

/-- The state after a command that raises `Fatal(e)` having brought the block to `s` (spec/60_exceptions.md R203). -/
def afterFatal (s : State) (e : BitVec 3) : State :=
  { s with
    fstate := .failed
    err := if s.err = 0 then e else s.err
    response := some ⟨0x01, (if s.err = 0 then e else s.err).setWidth 32⟩ }

/-- The canonical header in the five wire bytes at the start of `RXBUF`, in the receive direction. -/
def receivedHeader (s : State) : Header :=
  decodeHeader s.pt s.rxdir
    (s.rxbuf.read 0 ++ s.rxbuf.read 1 ++ s.rxbuf.read 2 ++ s.rxbuf.read 3 ++ s.rxbuf.read 4)

/-- `DLEN` of a canonical header, `max(0, BLEN - KVAL)` (spec/43_stream_cipher.md R156). -/
def dataLength (x : Header) : BitVec 16 := BitVec.ofNat 16 ((x.extractLsb' 29 11).toNat - (x.extractLsb' 0 3).toNat)

/-- The five canonical header bytes, most significant first (spec/43_stream_cipher.md R151). -/
def canonicalBytes (x : Header) : List Byte :=
  [x.extractLsb' 32 8, x.extractLsb' 24 8, x.extractLsb' 16 8, x.extractLsb' 8 8, x.extractLsb' 0 8]

/-- `s` with the header registers of `x` (spec/43_stream_cipher.md R156). -/
def withHeader (s : State) (x : Header) : State :=
  { s with
    blen := (x.extractLsb' 29 11).setWidth 16
    cmd := (x.extractLsb' 18 11).setWidth 16
    tsalt := x.extractLsb' 7 11
    rsalt := x.extractLsb' 3 4
    kval := x.extractLsb' 0 3
    dlen := dataLength x
    ck := checksumFrom 0 (canonicalBytes x) }

/-- `m` holds the little-endian prologue of `x` in its bytes 0 to 4 (spec/43_stream_cipher.md R156). -/
def PrologueOf (x : Header) (m : Memory 8) : Prop :=
  m.read 0 = (dataLength x).extractLsb' 0 8 ∧ m.read 1 = (dataLength x).extractLsb' 8 8 ∧
  m.read 2 = ((x.extractLsb' 18 11).setWidth 16).extractLsb' 0 8 ∧
  m.read 3 = ((x.extractLsb' 18 11).setWidth 16).extractLsb' 8 8 ∧ m.read 4 = 0

/-- Body byte `i` of `m` under the salts of `s`: XORed with its keystream byte (spec/43_stream_cipher.md R153, R159). -/
def bodyPlain (s : State) (m : Memory 8) (i : Nat) : Byte := m.read i ^^^ bodyKeystream s.pt s.rsalt s.tsalt i

/-- The checksum after the body bytes `[6, n)` of `m` (spec/43_stream_cipher.md R159). -/
def bodyChecksum (s : State) (m : Memory 8) (n : Nat) : Byte :=
  checksumFrom s.ck ((List.range' 6 (n - 6)).map (bodyPlain s m))

/-- The commands spec/60_exceptions.md R204 accepts in `Failed`. -/
def acceptedInFailed : Instr → Prop
  | .nop | .reset | .ctrlrd | .status | .hdrrd _ => True
  | .ctrlwr _ | .keygen _ | .getseed | .ptrd _ | .itrd _ | .vsrd _ | .rxpush _ | .rxrd _ | .dechdr | .decbody
    | .rxpkt | .rxnext | .linkdown | .adechdr | .adecbody | .txwr _ _ | .txrd _ | .encrypt _ _ | .aencrypt _
    | .txsend _ _ | .txdone => False

/-- The commands spec/20_memory.md R64 says change no state. -/
def isReadCommand : Instr → Prop
  | .rxrd _ | .txrd _ | .ptrd _ | .itrd _ | .vsrd _ | .hdrrd _ | .ctrlrd | .status | .getseed | .rxpkt => True
  | .nop | .reset | .ctrlwr _ | .keygen _ | .rxpush _ | .dechdr | .decbody | .rxnext | .linkdown | .adechdr
    | .adecbody | .txwr _ _ | .encrypt _ _ | .aencrypt _ | .txsend _ _ | .txdone => False

/-- The send side's commands (spec/60_exceptions.md R204). -/
def isSendCommand : Instr → Prop
  | .txwr _ _ | .txrd _ | .encrypt _ _ | .aencrypt _ | .txsend _ _ | .txdone => True
  | .nop | .reset | .ctrlwr _ | .ctrlrd | .status | .keygen _ | .getseed | .ptrd _ | .itrd _ | .vsrd _
    | .hdrrd _ | .rxpush _ | .rxrd _ | .dechdr | .decbody | .rxpkt | .rxnext | .linkdown | .adechdr
    | .adecbody => False

/-- The receive side's commands (spec/30_encoding.md R84, opcodes 0x10 to 0x18). -/
def isReceiveCommand : Instr → Prop
  | .rxpush _ | .rxrd _ | .dechdr | .decbody | .rxpkt | .rxnext | .linkdown | .adechdr | .adecbody => True
  | .nop | .reset | .ctrlwr _ | .ctrlrd | .status | .keygen _ | .getseed | .ptrd _ | .itrd _ | .vsrd _
    | .hdrrd _ | .txwr _ _ | .txrd _ | .encrypt _ _ | .aencrypt _ | .txsend _ _ | .txdone => False

/-- The rows of spec/60_exceptions.md R210: the status codes a command can answer with. -/
def outcomesOf : Instr → List (BitVec 8)
  | .nop | .reset | .ctrlrd | .status | .hdrrd _ => [0x00]
  | .ctrlwr _ | .keygen _ | .adechdr | .adecbody | .rxpkt | .rxnext | .txdone => [0x00, 0x12, 0x14]
  | .getseed | .ptrd _ | .itrd _ => [0x00, 0x12, 0x13]
  | .vsrd _ => [0x00, 0x12, 0x13, 0x15]
  | .rxpush _ => [0x00, 0x01, 0x12, 0x13, 0x14, 0x15]
  | .rxrd _ | .txrd _ => [0x00, 0x12, 0x15]
  | .dechdr | .decbody => [0x00, 0x12, 0x13, 0x14]
  | .linkdown => [0x01, 0x12]
  | .txwr _ _ | .aencrypt _ => [0x00, 0x12, 0x14, 0x15]
  | .encrypt _ _ | .txsend _ _ => [0x00, 0x12, 0x13, 0x14, 0x15]

/-- The variant a selector names: 0, 1, 2, 3 name A, B, C, D (spec/41_prng_keyschedule.md R123). -/
def namedVariant (q : BitVec 2) : Variant := [.A, .B, .C, .D].getD q.toNat .A

/-- The variant of row `r` of `PT`, of the index table for `r = 16` (spec/41_prng_keyschedule.md R125). -/
def rowVariant (k : KeyTables) (r : Nat) : Variant := namedVariant (k.vsel.read r)

/-- The first output of a variant that is not a selector's draw: the 17 selectors are drawn from B
(spec/41_prng_keyschedule.md R125). -/
def firstTableDraw : Variant → Nat
  | .B => 17
  | .A | .C | .D => 0

/-- `PT[f]` took output `n` of its row's variant of the second generator (spec/41_prng_keyschedule.md R124, R126). -/
def PtCellTakes (p : Params) (seed : Word) (k : KeyTables) (f n : Nat) : Prop :=
  TakesDraw (variantOutput p (rowVariant k (f / 2048)) (variantOutput p .D seed 0))
    (firstTableDraw (rowVariant k (f / 2048))) k.pt.read f n

/-- `start` is the output of its variant at which the index table's draws begin: the one after the last that `PT` used, or that
variant's first table draw where no row of `PT` draws from it (spec/41_prng_keyschedule.md R124, R127). -/
def IndexDrawsStart (p : Params) (seed : Word) (k : KeyTables) (start : Nat) : Prop :=
  (∀ f n, f < 32768 → rowVariant k (f / 2048) = rowVariant k 16 → PtCellTakes p seed k f n → n < start) ∧
  firstTableDraw (rowVariant k 16) ≤ start ∧
  (start = firstTableDraw (rowVariant k 16) ∨
    ∃ f n, f < 32768 ∧ rowVariant k (f / 2048) = rowVariant k 16 ∧ PtCellTakes p seed k f n ∧ start = n + 1)

/-- The bytes given to `RXPUSH` one after another, stopping where the machine stops. -/
def pushAll : List Byte → State → Result
  | [], s => .next s
  | b :: bs, s =>
    match exec (.rxpush b) s with
    | .next t => pushAll bs t
    | .fault f => .fault f
    | .refused r => .refused r

/-! ## Decoding, encoding, stepping -/

/-- R83, R84, R85, R87: the decoder reads back every command from its word, and a word that decodes to a command is that
command's only word: no bit of an accepted word is ignored. -/
def Obligations.DecodeInvertsEncode : Prop :=
  (∀ i : Instr, decode (encode i) = .ok i) ∧ ∀ (w : Command) (i : Instr), decode w = .ok i → encode i = w

/-- R85: every word gets exactly one of three verdicts, in this order, and a refused word changes no state. -/
def Obligations.StepGivesEveryWordItsVerdict : Prop :=
  ∀ (s : State) (w : Command) (q : List Command), s.pending = w :: q →
    ((w >>> 56).toNat ∉ definedOpcodes → step s = .next (answered { s with pending := q } 0x10 0)) ∧
    ((w >>> 56).toNat ∈ definedOpcodes → w.wellFormed = false →
      step s = .next (answered { s with pending := q } 0x11 0)) ∧
    ((w >>> 56).toNat ∈ definedOpcodes → w.wellFormed = true →
      ∃ i, encode i = w ∧ decode w = .ok i ∧ step s = exec i { s with pending := q })

/-- Sanity: words of spec/30_encoding.md R81, R84 and of the examples of files 40 to 45, written out. -/
def Obligations.DecodesWordsOfTheSpec : Prop :=
  decode 0x0000000000000000 = .ok .nop ∧ decode 0x050000000042D266 = .ok (.keygen 0x42D266) ∧
  decode 0x0A00500000000000 = .ok (.hdrrd 5) ∧ decode 0x10000000000000E2 = .ok (.rxpush 0xE2) ∧
  decode 0x2000600000000068 = .ok (.txwr 6 0x68) ∧ decode 0x2200600600000000 = .ok (.encrypt 6 6) ∧
  decode 0x2400512300000000 = .ok (.txsend 5 0x123) ∧ decode 0x2300B00000000000 = .ok (.aencrypt 11) ∧
  decode 0x7F00000000000000 = .error .illegal ∧ decode 0x2280600600000000 = .error .reserved

/-- R19, R80: a step is the command that the host's next word decodes to, run in the state without that word; with no word
given nothing changes (R206; the model's choice, log entry 3). -/
def Obligations.StepRunsTheDecodedCommand : Prop :=
  (∀ (s : State) (w : Command) (q : List Command) (i : Instr), s.pending = w :: q → decode w = .ok i →
    step s = exec i { s with pending := q }) ∧
  ∀ s : State, s.pending = [] → step s = .next s

/-! ## The header codec and the header cipher -/

/-- R140: the canonical record's value, each field read back from it, the record made again from its fields, and its five bytes,
most significant first. -/
def Obligations.CanonicalRecordFields : Prop :=
  (∀ (bl c t : BitVec 11) (r : BitVec 4) (k : BitVec 3),
    canon bl c t r k = bl.setWidth 40 <<< 29 ||| c.setWidth 40 <<< 18 ||| t.setWidth 40 <<< 7 ||| r.setWidth 40 <<< 3 |||
      k.setWidth 40 ∧
    (canon bl c t r k).extractLsb' 29 11 = bl ∧ (canon bl c t r k).extractLsb' 18 11 = c ∧
    (canon bl c t r k).extractLsb' 7 11 = t ∧ (canon bl c t r k).extractLsb' 3 4 = r ∧
    (canon bl c t r k).extractLsb' 0 3 = k) ∧
  ∀ x : Header,
    canon (x.extractLsb' 29 11) (x.extractLsb' 18 11) (x.extractLsb' 7 11) (x.extractLsb' 3 4) (x.extractLsb' 0 3) = x ∧
    b5 x = canonicalBytes x

/-- R143, R144: each wire bit of either ordering, by the spec's own bit-by-bit lists. -/
def Obligations.PackMovesEachBit : Prop :=
  ∀ (x : Header) (k : Nat), k < 40 →
    (pack .s2c x).getLsbD (39 - k) = x.getLsbD (s2cWireBits.getD k 0) ∧
    (pack .c2s x).getLsbD (39 - k) = x.getLsbD (c2sWireBits.getD k 0)

/-- R148: for either direction the two mappings are each other's inverse. -/
def Obligations.UnpackInvertsPack : Prop :=
  ∀ (d : Direction) (x w : Header), unpack d (pack d x) = x ∧ pack d (unpack d w) = w

/-- R147: the salt mask and the salt read from the wire, by value and by `pack` and `unpack`. -/
def Obligations.SaltPositions : Prop :=
  saltMask .s2c = 0x1C01C6001C ∧ saltMask .c2s = 0x1C7000301C ∧ (∀ d : Direction, saltMask d = pack d 0x000003FF80) ∧
  (∀ w : Header,
    saltOf .s2c w = w.extractLsb' 34 3 ++ w.extractLsb' 2 3 ++ w.extractLsb' 22 3 ++ w.extractLsb' 17 2 ∧
    saltOf .c2s w = w.extractLsb' 2 3 ++ w.extractLsb' 34 3 ++ w.extractLsb' 28 3 ++ w.extractLsb' 12 2) ∧
  ∀ (d : Direction) (w : Header), saltOf d w = (unpack d w).extractLsb' 7 11

/-- R152, R153: which cell each keystream byte comes from, and that the cell is inside `PT`. -/
def Obligations.KeystreamCells : Prop :=
  (∀ (pt : Memory 32) (t : BitVec 11) (j : Nat), j < 5 →
    (headerKeystream pt t).extractLsb' (32 - 8 * j) 8 = (pt.read (j * 2048 + t.toNat)).extractLsb' 0 8) ∧
  ∀ (pt : Memory 32) (r : BitVec 4) (t : BitVec 11) (i : Nat),
    bodyKeystream pt r t i = (pt.read ((r.toNat + i) % 16 * 2048 + (t.toNat + i) % 2048)).extractLsb' 0 8 ∧
    (r.toNat + i) % 16 * 2048 + (t.toNat + i) % 2048 < 32768

/-- R154: the wire header bit by bit: a salt position carries the packed bit in clear, every other position the packed bit
XORed with the header keystream. -/
def Obligations.HeaderCipherLeavesSaltInClear : Prop :=
  ∀ (pt : Memory 32) (d : Direction) (x : Header) (i : Nat), i < 40 →
    (encodeHeader pt d x).getLsbD i =
      if (saltMask d).getLsbD i then (pack d x).getLsbD i
      else ((pack d x).getLsbD i ^^ (headerKeystream pt (x.extractLsb' 7 11)).getLsbD i)

/-- R155: header decode and header encode are each other's inverse, for every table. -/
def Obligations.HeaderCipherRoundTrip : Prop :=
  ∀ (pt : Memory 32) (d : Direction) (x w : Header),
    decodeHeader pt d (encodeHeader pt d x) = x ∧ encodeHeader pt d (decodeHeader pt d w) = w

/-! ## The generator and the key schedule -/

/-- R122: the outputs of a variant among any draws from `new(v)` are those of that many draws of the variant alone. -/
def Obligations.VariantsAreIndependent : Prop :=
  ∀ (p : Params) (v : Word) (xs : List Variant) (x : Variant),
    (drawAll p (newGenerator v) xs).filter (·.1 = x) = drawAll p (newGenerator v) (List.replicate (xs.count x) x)

/-- R123 to R127, R130 (b): what each cell of a completed `KS(seed)` holds, in outputs of the variants alone. With `m` the first
D output of `new(seed)` (R124): the selectors are bits 1:0 of the first 17 B outputs of `new(m)`, in order (R125); each cell of
`PT`, in flat order, takes the first output of its row's variant, B's first 17 left out, that no cell before it holds, at full
width (R126); and each cell of `IT` does so with the low 11 bits of the outputs of the variant that selector 16 names, from the
first one that neither the selectors nor `PT` used (R127). So the cells of `PT` are pairwise different, and those of `IT`
pairwise different and below 2048. -/
def Obligations.KeyScheduleCells : Prop :=
  ∀ (p : Params) (seed : Word) (k : KeyTables), ks p seed = some k →
    (∀ j, j < 17 → k.vsel.read j = (variantOutput p .B (variantOutput p .D seed 0) j).extractLsb' 0 2) ∧
    (∀ f, f < 32768 → ∃ n, PtCellTakes p seed k f n) ∧
    (∃ start, IndexDrawsStart p seed k start ∧ ∀ j, j < 512 →
      ∃ n, TakesDraw (fun e => variantOutput p (rowVariant k 16) (variantOutput p .D seed 0) e &&& 0x7FF) start
        (fun g => (k.itab.read g).setWidth 32) j n) ∧
    (∀ i j : Nat, i < j → j < 32768 → k.pt.read i ≠ k.pt.read j) ∧
    (∀ i j : Nat, i < j → j < 512 → k.itab.read i ≠ k.itab.read j) ∧
    ∀ i : Nat, i < 512 → (k.itab.read i).toNat < 2048

/-- R129: a rejection loop that the model gives up on never ends, however many draws it makes. The bound of 2^32 draws is
DEDUCED, log entry 9. -/
def Obligations.DrawBoundIsExact : Prop :=
  ∀ (p : Params) (x : Variant) (reduce : Word → Word) (stored : List Word) (g : Generator),
    drawFresh p x reduce stored drawBound g = none → ∀ n, drawFresh p x reduce stored n g = none

/-- R128, R129: where `KS(seed)` is defined, `KEYGEN` loads the tables, `SEED` and `KSVALID` and completes; where it is not, it
never completes. The generators are OPEN (R8), so that `KS(seed)` is defined is a premise (R129); it is said of the meaning under
every configuration `p`, and of the command itself, which is that meaning under the block's own configuration. -/
def Obligations.KeygenLoadsTheKeySchedule : Prop :=
  ∀ (seed : Word) (s : State), s.fstate ≠ .failed → s.ksvalid = false →
    (∀ p k, ks p seed = some k →
      keygen p seed s =
        .next (answered { s with seed := seed, ksvalid := true, vsel := k.vsel, pt := k.pt, itab := k.itab } 0x00 0)) ∧
    (∀ p, ks p seed = none → keygen p seed s = .fault .keygenNeverEnds) ∧
    exec (.keygen seed) s = keygen Config.hardware seed s ∧
    ∀ k, ks Config.hardware seed = some k →
      exec (.keygen seed) s =
        .next (answered { s with seed := seed, ksvalid := true, vsel := k.vsel, pt := k.pt, itab := k.itab } 0x00 0)

/-! ## Control, status and read-out commands -/

/-- R47, R101, R220: what reset leaves, in the reset state and after `RESET` in any state; the host's words are not the
block's. `SEED`, `PT`, `IT`, `VSEL` and `RXBUF` are left unspecified by the spec and are not said here. -/
def Obligations.ResetLeavesTheResetValues : Prop :=
  (∀ t : State,
    (t = State.reset ∨ ∃ s, exec .reset s = .next t) →
      t.ksvalid = false ∧ t.blen = 0 ∧ t.cmd = 0 ∧ t.tsalt = 0 ∧ t.rsalt = 0 ∧ t.kval = 0 ∧ t.dlen = 0 ∧ t.ck = 0 ∧
      t.fstate = .awaitHeader ∧ t.need = 6 ∧ t.err = 0 ∧ t.ctrl = 0xA ∧ t.rxlen = 0 ∧ t.txlen = 0 ∧
      ∀ a, t.txbuf.read a = 0) ∧
  ∀ s : State, ∃ t, exec .reset s = .next t ∧ t.response = some ⟨0x00, 0⟩ ∧ t.pending = s.pending

/-- R100, R103, R105: accepted in every state, `Failed` included, changing nothing but the response. -/
def Obligations.ControlReadsInEveryState : Prop :=
  ∀ s : State,
    exec .nop s = .next (answered s 0x00 0) ∧
    exec .ctrlrd s = .next (answered s 0x00 (s.ctrl.setWidth 32)) ∧
    exec (.hdrrd 0) s = .next (answered s 0x00 (s.blen.setWidth 32)) ∧
    exec (.hdrrd 1) s = .next (answered s 0x00 (s.cmd.setWidth 32)) ∧
    exec (.hdrrd 2) s = .next (answered s 0x00 (s.tsalt.setWidth 32)) ∧
    exec (.hdrrd 3) s = .next (answered s 0x00 (s.rsalt.setWidth 32)) ∧
    exec (.hdrrd 4) s = .next (answered s 0x00 (s.kval.setWidth 32)) ∧
    exec (.hdrrd 5) s = .next (answered s 0x00 (s.dlen.setWidth 32)) ∧
    exec (.hdrrd 6) s = .next (answered s 0x00 (s.ck.setWidth 32)) ∧
    exec (.hdrrd 7) s = .next (answered s 0x00 (s.need.setWidth 32))

/-- R34, R104: `STATUS` completes in every state, changes nothing, and its word has this layout. -/
def Obligations.StatusWordLayout : Prop :=
  ∀ s : State, ∃ r : BitVec 32, exec .status s = .next (answered s 0x00 r) ∧
    r.extractLsb' 0 2 = (match s.fstate with | .awaitHeader => 0 | .awaitBody => 1 | .ready => 2 | .failed => 3) ∧
    r.getLsbD 2 = s.ksvalid ∧ r.getLsbD 3 = false ∧ r.extractLsb' 4 3 = s.err ∧ r.getLsbD 7 = false ∧
    r.extractLsb' 8 11 = s.rxlen ∧ r.getLsbD 19 = false ∧ r.extractLsb' 20 11 = s.txlen ∧ r.getLsbD 31 = false

/-- R102: on an idle block `CTRL` becomes the operand and nothing else changes. -/
def Obligations.CtrlwrOnAnIdleBlock : Prop :=
  ∀ (v : BitVec 4) (s : State), s.fstate = .awaitHeader → s.rxlen = 0 → s.txlen = 0 →
    exec (.ctrlwr v) s = .next (answered { s with ctrl := v } 0x00 0)

/-- R106: the seed of the last `KEYGEN`; 0 under the ALT codec, before the check of `KSVALID`. -/
def Obligations.GetseedAnswers : Prop :=
  ∀ s : State, s.fstate ≠ .failed →
    (s.ctrl.getLsbD 0 = true → exec .getseed s = .next (answered s 0x00 0)) ∧
    (s.ctrl.getLsbD 0 = false → s.ksvalid = true → exec .getseed s = .next (answered s 0x00 s.seed))

/-- R107, R108, R109, R173, R180: a cell of a table, with a key schedule; a byte buffered in `RXBUF`; any cell of `TXBUF`. Each
read command answers the cell and changes nothing. -/
def Obligations.ReadCommandsAnswerTheCell : Prop :=
  ∀ s : State, s.fstate ≠ .failed →
    (s.ksvalid = true →
      (∀ i : BitVec 15, exec (.ptrd i) s = .next (answered s 0x00 (s.pt.read i.toNat))) ∧
      (∀ i : BitVec 9, exec (.itrd i) s = .next (answered s 0x00 ((s.itab.read i.toNat).setWidth 32))) ∧
      ∀ i : BitVec 5, i.toNat ≤ 16 → exec (.vsrd i) s = .next (answered s 0x00 ((s.vsel.read i.toNat).setWidth 32))) ∧
    (∀ a : BitVec 11, a.toNat < s.rxlen.toNat →
      exec (.rxrd a) s = .next (answered s 0x00 ((s.rxbuf.read a.toNat).setWidth 32))) ∧
    ∀ a : BitVec 11, a.toNat < 2047 → exec (.txrd a) s = .next (answered s 0x00 ((s.txbuf.read a.toNat).setWidth 32))

/-! ## The framer: manual mode, the packet, link loss, the send buffer -/

/-- R170, R184: in manual mode the byte is appended and nothing else happens. -/
def Obligations.RxpushAppendsInManualMode : Prop :=
  ∀ (b : Byte) (s : State), s.fstate ≠ .failed → s.ctrl.getLsbD 1 = false → s.rxlen.toNat < 2047 → s.rxbuf.wf →
    ∃ m : Memory 8,
      exec (.rxpush b) s = .next (answered { s with rxbuf := m, rxlen := s.rxlen + 1 } 0x00 (s.fstate.code.setWidth 32)) ∧
      ∀ a, m.read a = if a = s.rxlen.toNat then b else s.rxbuf.read a

/-- R170, R177: in AUTO mode a byte after which the buffer holds fewer than the framer waits for is stored and counted, and
the framer stays where it is. -/
def Obligations.RxpushBuffersUntilNeeded : Prop :=
  ∀ (b : Byte) (s : State), s.ctrl.getLsbD 1 = true → (s.ctrl.getLsbD 0 = true ∨ s.ksvalid = true) → s.rxbuf.wf →
    s.rxlen.toNat < 2047 →
    (s.fstate = .awaitHeader ∧ s.rxlen.toNat + 1 < 6 ∨ s.fstate = .awaitBody ∧ s.rxlen.toNat + 1 < s.need.toNat) →
    ∃ m : Memory 8,
      exec (.rxpush b) s =
        .next (answered { s with rxbuf := m, rxlen := s.rxlen + 1 } 0x00 (if s.fstate = .awaitHeader then 0 else 1)) ∧
      ∀ a, m.read a = if a = s.rxlen.toNat then b else s.rxbuf.read a

/-- R170 to R172 under the stream codec, the sixth byte `b` of a frame: the header is decoded (R156); a length below 6 is
`DecryptHeaderFailed`; a longer frame is waited for; and a frame of exactly 6 bytes is verified in the same command. -/
def Obligations.RxpushDecodesStreamHeader : Prop :=
  ∀ (b : Byte) (s : State), s.ctrl.getLsbD 1 = true → s.ctrl.getLsbD 0 = false → s.ksvalid = true →
    s.fstate = .awaitHeader → s.rxlen = 5 → s.rxbuf.wf →
    ∃ m : Memory 8, PrologueOf (receivedHeader s) m ∧ m.read 5 = b ∧ (∀ a, 6 ≤ a → m.read a = s.rxbuf.read a) ∧
      (((receivedHeader s).extractLsb' 29 11).toNat < 6 →
        exec (.rxpush b) s = .next (afterFatal { withHeader s (receivedHeader s) with rxbuf := m, rxlen := 6 } 2)) ∧
      (6 < ((receivedHeader s).extractLsb' 29 11).toNat →
        exec (.rxpush b) s =
          .next (answered { withHeader s (receivedHeader s) with
            rxbuf := m, rxlen := 6, fstate := .awaitBody,
            need := ((receivedHeader s).extractLsb' 29 11).setWidth 16 } 0x00 1)) ∧
      (((receivedHeader s).extractLsb' 29 11).toNat = 6 →
        exec (.rxpush b) s =
          if checksumFrom 0 (canonicalBytes (receivedHeader s)) = b then
            .next (answered { withHeader s (receivedHeader s) with rxbuf := m, rxlen := 6, fstate := .ready, need := 6 } 0x00 2)
          else
            .next (afterFatal { withHeader s (receivedHeader s) with rxbuf := m, rxlen := 6, need := 6 } 3))

/-- R170, R172 under the stream codec, the last byte `b` of a frame: the body is decrypted and verified (R159); `Ready` when
the checksum is the frame's byte 5, `DecryptBodyFailed` otherwise. -/
def Obligations.RxpushVerifiesStreamBody : Prop :=
  ∀ (b : Byte) (s : State), s.ctrl.getLsbD 1 = true → s.ctrl.getLsbD 0 = false → s.ksvalid = true →
    s.fstate = .awaitBody → 6 ≤ s.rxlen.toNat → s.rxlen.toNat + 1 = s.need.toNat → s.need = s.blen →
    s.need.toNat ≤ 2047 → s.rxbuf.wf →
    ∃ full m : Memory 8, (∀ a, full.read a = if a = s.rxlen.toNat then b else s.rxbuf.read a) ∧
      (∀ a, m.read a = if 6 ≤ a ∧ a < s.blen.toNat then bodyPlain s full a else full.read a) ∧
      exec (.rxpush b) s =
        if bodyChecksum s full s.blen.toNat = s.rxbuf.read 5 then
          .next (answered { s with
            rxbuf := m, rxlen := s.rxlen + 1, ck := bodyChecksum s full s.blen.toNat, fstate := .ready } 0x00 2)
        else
          .next (afterFatal { s with rxbuf := m, rxlen := s.rxlen + 1, ck := bodyChecksum s full s.blen.toNat } 3)

/-- R170 to R172 and R191 under the ALT codec, the sixth byte `b` of a frame: bytes 0 and 1 are the length; a length no frame
can have is `DecryptHeaderFailed`; a longer frame is waited for; a frame of exactly 6 bytes is `Ready`. -/
def Obligations.RxpushDecodesAltHeader : Prop :=
  ∀ (b : Byte) (s : State), s.ctrl.getLsbD 1 = true → s.ctrl.getLsbD 0 = true → s.fstate = .awaitHeader → s.rxlen = 5 →
    s.rxbuf.wf →
    ∃ (m : Memory 8) (l : BitVec 16) (t : State),
      l = s.rxbuf.read 1 ++ s.rxbuf.read 0 ∧
      (∀ a, m.read a = if a = 5 then b ^^^ Config.altx else if 2 ≤ a ∧ a < 5 then s.rxbuf.read a ^^^ Config.altx
        else s.rxbuf.read a) ∧
      t = { s with
        blen := l, cmd := m.read 3 ++ m.read 2, tsalt := 0, rsalt := 0, kval := 0, dlen := l, ck := 0, rxbuf := m, rxlen := 6 } ∧
      (l.toNat < 6 ∨ 2047 < l.toNat → exec (.rxpush b) s = .next (afterFatal t 2)) ∧
      (6 < l.toNat → l.toNat ≤ 2047 →
        exec (.rxpush b) s = .next (answered { t with fstate := .awaitBody, need := l } 0x00 1)) ∧
      (l.toNat = 6 → exec (.rxpush b) s = .next (answered { t with fstate := .ready, need := 6 } 0x00 2))

/-- R170, R172 and R192 under the ALT codec, the last byte `b` of a frame: the range `[6, BLEN-2)` is XORed and the frame is
`Ready`, whatever its bytes. -/
def Obligations.RxpushCompletesAltBody : Prop :=
  ∀ (b : Byte) (s : State), s.ctrl.getLsbD 1 = true → s.ctrl.getLsbD 0 = true → s.fstate = .awaitBody →
    6 ≤ s.rxlen.toNat → s.rxlen.toNat + 1 = s.need.toNat → s.need = s.blen → s.need.toNat ≤ 2047 → s.rxbuf.wf →
    ∃ full m : Memory 8, (∀ a, full.read a = if a = s.rxlen.toNat then b else s.rxbuf.read a) ∧
      (∀ a, m.read a = if 6 ≤ a ∧ a + 2 < s.blen.toNat then full.read a ^^^ Config.altx else full.read a) ∧
      exec (.rxpush b) s = .next (answered { s with rxbuf := m, rxlen := s.rxlen + 1, fstate := .ready } 0x00 2)

/-- R174, R175: `RXPKT` answers the command id and the payload length `max(0, DLEN - 6)` and changes nothing; `RXNEXT` empties
the buffer and waits for the next header, the header registers keeping their values. -/
def Obligations.PacketIsReportedAndReleased : Prop :=
  ∀ s : State, s.fstate ≠ .failed → (s.ctrl.getLsbD 1 = false ∨ s.fstate = .ready) →
    (∃ r : BitVec 32, exec .rxpkt s = .next (answered s 0x00 r) ∧ r.extractLsb' 0 16 = s.cmd ∧
      (r.extractLsb' 16 16).toNat = s.dlen.toNat - 6) ∧
    exec .rxnext s = .next (answered { s with rxlen := 0, fstate := .awaitHeader, need := 6 } 0x00 0)

/-- R176, R203: `LINKDOWN` raises `ConnectionLost`. -/
def Obligations.LinkdownRaisesConnectionLost : Prop :=
  ∀ s : State, s.fstate ≠ .failed → exec .linkdown s = .next (afterFatal s 1)

/-- R178, R181: `TXWR` writes one byte of `TXBUF` and nothing else; `TXDONE` releases the lock and clears every cell to 0. -/
def Obligations.SendBufferIsWrittenAndCleared : Prop :=
  (∀ (a : BitVec 11) (v : Byte) (s : State), s.fstate ≠ .failed → s.txlen = 0 → a.toNat < 2047 → s.txbuf.wf →
    ∃ m : Memory 8, exec (.txwr a v) s = .next (answered { s with txbuf := m } 0x00 0) ∧
      ∀ b, m.read b = if b = a.toNat then v else s.txbuf.read b) ∧
  ∀ s : State, s.fstate ≠ .failed → s.txlen ≠ 0 →
    ∃ m : Memory 8, exec .txdone s = .next (answered { s with txlen := 0, txbuf := m } 0x00 0) ∧ ∀ a, m.read a = 0

/-! ## The codecs' commands -/

/-- R156: the header registers, `CK` and the five prologue bytes; byte 5 and every later byte are left alone. -/
def Obligations.DechdrDecodesTheHeader : Prop :=
  ∀ s : State, s.fstate ≠ .failed → s.ksvalid = true → s.ctrl.getLsbD 1 = false → 6 ≤ s.rxlen.toNat → s.rxbuf.wf →
    ∃ m : Memory 8,
      exec .dechdr s =
        .next (answered { withHeader s (receivedHeader s) with rxbuf := m } 0x00
          (((receivedHeader s).extractLsb' 29 11).setWidth 32)) ∧
      PrologueOf (receivedHeader s) m ∧ ∀ a, 5 ≤ a → m.read a = s.rxbuf.read a

/-- R159: the body bytes are XORed with their keystream, the plain bytes folded into `CK`, and the answer is whether `CK` is
the frame's byte 5. -/
def Obligations.DecbodyDecryptsAndVerifies : Prop :=
  ∀ s : State, s.fstate ≠ .failed → s.ksvalid = true → s.ctrl.getLsbD 1 = false → 6 ≤ s.rxlen.toNat →
    s.blen.toNat ≤ s.rxlen.toNat → s.rxbuf.wf →
    ∃ m : Memory 8,
      exec .decbody s =
        .next (answered { s with rxbuf := m, ck := bodyChecksum s s.rxbuf s.blen.toNat } 0x00
          (if bodyChecksum s s.rxbuf s.blen.toNat = s.rxbuf.read 5 then 1 else 0)) ∧
      ∀ a, m.read a = if 6 ≤ a ∧ a < s.blen.toNat then bodyPlain s s.rxbuf a else s.rxbuf.read a

/-- R160, R161: the wire header, the checksum byte, the body and `TXLEN`; every byte at or above `size` is left alone. -/
def Obligations.EncryptWritesTheFrame : Prop :=
  ∀ (size c : BitVec 11) (s : State), s.fstate ≠ .failed → s.ksvalid = true → s.txlen = 0 → 6 ≤ size.toNat → s.txbuf.wf →
    ∃ m : Memory 8,
      exec (.encrypt size c) s = .next (answered { s with txbuf := m, txlen := size } 0x00 (size.setWidth 32)) ∧
      (∀ j, j < 5 → m.read j = (encodeHeader s.pt s.txdir (canon size c 1 1 2)).extractLsb' (32 - 8 * j) 8) ∧
      m.read 5 = checksumFrom 0 (canonicalBytes (canon size c 1 1 2) ++ bytesOf s.txbuf 6 (size.toNat - 6)) ∧
      (∀ a, 6 ≤ a → a < size.toNat → m.read a = s.txbuf.read a ^^^ bodyKeystream s.pt 1 1 a) ∧
      ∀ a, size.toNat ≤ a → m.read a = s.txbuf.read a

/-- R191: the length in clear, bytes 2 to 5 XORed, and the header registers. -/
def Obligations.AdechdrDecodesTheHeader : Prop :=
  ∀ s : State, s.fstate ≠ .failed → s.ctrl.getLsbD 1 = false → 6 ≤ s.rxlen.toNat → s.rxbuf.wf →
    ∃ (m : Memory 8) (l : BitVec 16), l = s.rxbuf.read 1 ++ s.rxbuf.read 0 ∧
      exec .adechdr s =
        .next (answered { s with
          blen := l, cmd := m.read 3 ++ m.read 2, tsalt := 0, rsalt := 0, kval := 0, dlen := l, ck := 0, rxbuf := m } 0x00
          (l.setWidth 32)) ∧
      ∀ a, m.read a = if 2 ≤ a ∧ a < 6 then s.rxbuf.read a ^^^ Config.altx else s.rxbuf.read a

/-- R192: the range `[6, BLEN-2)` is XORed, the last two bytes of the frame are not, and the answer is 1. -/
def Obligations.AdecbodyDecodesTheBody : Prop :=
  ∀ s : State, s.fstate ≠ .failed → s.ctrl.getLsbD 1 = false → 6 ≤ s.rxlen.toNat → s.blen.toNat ≤ s.rxlen.toNat →
    s.rxbuf.wf →
    ∃ m : Memory 8, exec .adecbody s = .next (answered { s with rxbuf := m } 0x00 1) ∧
      ∀ a, m.read a = if 6 ≤ a ∧ a + 2 < s.blen.toNat then s.rxbuf.read a ^^^ Config.altx else s.rxbuf.read a

/-- R193: the length word in clear, bytes 2 to `size-3` XORed, every byte from `size-2` on left alone (for `size` 6 and 7,
from 6 on). -/
def Obligations.AencryptWritesTheFrame : Prop :=
  ∀ (size : BitVec 11) (s : State), s.fstate ≠ .failed → s.txlen = 0 → 6 ≤ size.toNat → s.txbuf.wf →
    ∃ m : Memory 8,
      exec (.aencrypt size) s = .next (answered { s with txbuf := m, txlen := size } 0x00 (size.setWidth 32)) ∧
      m.read 0 = (size.setWidth 16).extractLsb' 0 8 ∧ m.read 1 = (size.setWidth 16).extractLsb' 8 8 ∧
      ∀ a, 2 ≤ a → m.read a = if a < 6 ∨ a + 2 < size.toNat then s.txbuf.read a ^^^ Config.altx else s.txbuf.read a

/-- R179 under the stream codec: a frame of `n + 8` bytes, the payload's `n` bytes and two padding bytes of plain value 0
encrypted and checksummed as `ENCRYPT` does. -/
def Obligations.TxsendBuildsAStreamFrame : Prop :=
  ∀ (n c : BitVec 11) (s : State), s.fstate ≠ .failed → s.ctrl.getLsbD 0 = false → s.ksvalid = true → s.txlen = 0 →
    n.toNat ≤ 2039 → s.txbuf.wf →
    ∃ (m : Memory 8) (size : BitVec 11), size.toNat = n.toNat + 8 ∧
      exec (.txsend n c) s = .next (answered { s with txbuf := m, txlen := size } 0x00 (size.setWidth 32)) ∧
      (∀ j, j < 5 → m.read j = (encodeHeader s.pt s.txdir (canon size c 1 1 2)).extractLsb' (32 - 8 * j) 8) ∧
      m.read 5 = checksumFrom 0 (canonicalBytes (canon size c 1 1 2) ++ bytesOf s.txbuf 6 n.toNat ++ [0, 0]) ∧
      (∀ a, 6 ≤ a → a < 6 + n.toNat → m.read a = s.txbuf.read a ^^^ bodyKeystream s.pt 1 1 a) ∧
      (∀ a, 6 + n.toNat ≤ a → a < size.toNat → m.read a = bodyKeystream s.pt 1 1 a) ∧
      ∀ a, size.toNat ≤ a → m.read a = s.txbuf.read a

/-- R179 under the ALT codec: a frame of `n + 6` bytes with no padding, XORed as `AENCRYPT` does. -/
def Obligations.TxsendBuildsAnAltFrame : Prop :=
  ∀ (n c : BitVec 11) (s : State), s.fstate ≠ .failed → s.ctrl.getLsbD 0 = true → s.txlen = 0 → n.toNat ≤ 2041 → s.txbuf.wf →
    ∃ (m : Memory 8) (size : BitVec 11), size.toNat = n.toNat + 6 ∧
      exec (.txsend n c) s = .next (answered { s with txbuf := m, txlen := size } 0x00 (size.setWidth 32)) ∧
      m.read 0 = (size.setWidth 16).extractLsb' 0 8 ∧ m.read 1 = (size.setWidth 16).extractLsb' 8 8 ∧
      m.read 2 = (c.setWidth 16).extractLsb' 0 8 ^^^ Config.altx ∧ m.read 3 = (c.setWidth 16).extractLsb' 8 8 ^^^ Config.altx ∧
      m.read 4 = Config.altx ∧ m.read 5 = Config.altx ∧
      ∀ a, 6 ≤ a → m.read a = if a + 2 < size.toNat then s.txbuf.read a ^^^ Config.altx else s.txbuf.read a

/-! ## Refusals, fatal errors and what commands may change -/

/-- R204: in `Failed` every command but the five is refused with `REF_FAILED` and changes nothing; the five complete. -/
def Obligations.FailedRefusesAllButFive : Prop :=
  ∀ (i : Instr) (s : State), s.fstate = .failed →
    (¬ acceptedInFailed i → exec i s = .next (answered s 0x12 0)) ∧
    (acceptedInFailed i → ∃ t r, exec i s = .next t ∧ t.response = some ⟨0x00, r⟩)

/-- R208, R209, the row of `REF_NOKEY`: without a key schedule, whatever the mode, the lengths and the operands are. -/
def Obligations.NoKeyRefusals : Prop :=
  ∀ s : State, s.fstate ≠ .failed → s.ksvalid = false →
    (∀ i, exec (.ptrd i) s = .next (answered s 0x13 0)) ∧ (∀ i, exec (.itrd i) s = .next (answered s 0x13 0)) ∧
    (∀ i, exec (.vsrd i) s = .next (answered s 0x13 0)) ∧ exec .dechdr s = .next (answered s 0x13 0) ∧
    exec .decbody s = .next (answered s 0x13 0) ∧ (∀ n c, exec (.encrypt n c) s = .next (answered s 0x13 0)) ∧
    (s.ctrl.getLsbD 0 = false →
      exec .getseed s = .next (answered s 0x13 0) ∧ (∀ n c, exec (.txsend n c) s = .next (answered s 0x13 0)) ∧
      (s.ctrl.getLsbD 1 = true → ∀ b, exec (.rxpush b) s = .next (answered s 0x13 0)))

/-- R208, R209, the row of `REF_STATE`: each command where the present state does not allow it, whatever its operands. -/
def Obligations.StateRefusals : Prop :=
  ∀ s : State, s.fstate ≠ .failed →
    (¬ (s.fstate = .awaitHeader ∧ s.rxlen = 0 ∧ s.txlen = 0) → ∀ v, exec (.ctrlwr v) s = .next (answered s 0x14 0)) ∧
    (s.ksvalid = true → ∀ v, exec (.keygen v) s = .next (answered s 0x14 0)) ∧
    (s.ctrl.getLsbD 1 = true → s.fstate = .ready → (s.ctrl.getLsbD 0 = true ∨ s.ksvalid = true) →
      ∀ b, exec (.rxpush b) s = .next (answered s 0x14 0)) ∧
    (s.ksvalid = true → (s.ctrl.getLsbD 1 = true ∨ s.rxlen.toNat < 6) → exec .dechdr s = .next (answered s 0x14 0)) ∧
    (s.ksvalid = true → (s.ctrl.getLsbD 1 = true ∨ s.rxlen.toNat < max 6 s.blen.toNat) →
      exec .decbody s = .next (answered s 0x14 0)) ∧
    ((s.ctrl.getLsbD 1 = true ∨ s.rxlen.toNat < 6) → exec .adechdr s = .next (answered s 0x14 0)) ∧
    ((s.ctrl.getLsbD 1 = true ∨ s.rxlen.toNat < max 6 s.blen.toNat) → exec .adecbody s = .next (answered s 0x14 0)) ∧
    (s.ctrl.getLsbD 1 = true → s.fstate ≠ .ready →
      exec .rxpkt s = .next (answered s 0x14 0) ∧ exec .rxnext s = .next (answered s 0x14 0)) ∧
    (s.txlen ≠ 0 →
      (∀ a v, exec (.txwr a v) s = .next (answered s 0x14 0)) ∧ (∀ n, exec (.aencrypt n) s = .next (answered s 0x14 0)) ∧
      (s.ksvalid = true → ∀ n c, exec (.encrypt n c) s = .next (answered s 0x14 0)) ∧
      ((s.ctrl.getLsbD 0 = true ∨ s.ksvalid = true) → ∀ n c, exec (.txsend n c) s = .next (answered s 0x14 0))) ∧
    (s.txlen = 0 → exec .txdone s = .next (answered s 0x14 0))

/-- R208, R209, the row of `REF_RANGE`: operands that fit their bits and are out of the operation's range. -/
def Obligations.RangeRefusals : Prop :=
  ∀ s : State, s.fstate ≠ .failed →
    (s.ksvalid = true → ∀ i : BitVec 5, 16 < i.toNat → exec (.vsrd i) s = .next (answered s 0x15 0)) ∧
    (s.ctrl.getLsbD 1 = false → s.rxlen.toNat = 2047 → ∀ b, exec (.rxpush b) s = .next (answered s 0x15 0)) ∧
    (∀ a : BitVec 11, s.rxlen.toNat ≤ a.toNat → exec (.rxrd a) s = .next (answered s 0x15 0)) ∧
    (∀ a : BitVec 11, a.toNat = 2047 → exec (.txrd a) s = .next (answered s 0x15 0)) ∧
    (s.txlen = 0 →
      (∀ (a : BitVec 11) (v : Byte), a.toNat = 2047 → exec (.txwr a v) s = .next (answered s 0x15 0)) ∧
      (∀ n : BitVec 11, n.toNat < 6 → exec (.aencrypt n) s = .next (answered s 0x15 0)) ∧
      (s.ksvalid = true → ∀ n c : BitVec 11, n.toNat < 6 → exec (.encrypt n c) s = .next (answered s 0x15 0)) ∧
      (s.ctrl.getLsbD 0 = false → s.ksvalid = true → ∀ n c : BitVec 11, 2039 < n.toNat →
        exec (.txsend n c) s = .next (answered s 0x15 0)) ∧
      (s.ctrl.getLsbD 0 = true → ∀ n c : BitVec 11, 2041 < n.toNat → exec (.txsend n c) s = .next (answered s 0x15 0)))

/-- R13, R207: a command that answers a `REF_` code has changed nothing, and its result is 0. -/
def Obligations.RefusalChangesNothing : Prop :=
  ∀ (i : Instr) (s t : State) (st : BitVec 8) (r : BitVec 32),
    exec i s = .next t → t.response = some ⟨st, r⟩ → 0x10 ≤ st.toNat → t = answered s st 0

/-- R210: a command that gives a next state answers there, with a code of its row. (A `KEYGEN` may give no next state, R129.) -/
def Obligations.OutcomesOfEachCommand : Prop :=
  ∀ (i : Instr) (s t : State), exec i s = .next t → ∃ st r, t.response = some ⟨st, r⟩ ∧ st ∈ outcomesOf i

/-- R64: the read commands change nothing but the response, and asked again they answer the same. -/
def Obligations.ReadCommandsChangeNothing : Prop :=
  ∀ (i : Instr) (s : State), isReadCommand i →
    ∃ st r, exec i s = .next (answered s st r) ∧ exec i (answered s st r) = .next (answered s st r)

/-- R200, R203, R205: `FATAL` is answered by `LINKDOWN`, and by `RXPUSH` in AUTO mode, only; and from `Failed` no command but
`RESET` changes anything. -/
def Obligations.FatalErrorsAndTheWayOut : Prop :=
  (∀ (i : Instr) (s t : State) (r : BitVec 32), exec i s = .next t → t.response = some ⟨0x01, r⟩ →
    t.fstate = .failed ∧ r = t.err.setWidth 32 ∧ (i = .linkdown ∨ (∃ b, i = .rxpush b) ∧ s.ctrl.getLsbD 1 = true)) ∧
  ∀ (i : Instr) (s t : State), s.fstate = .failed → i ≠ .reset → exec i s = .next t → ∃ st r, t = answered s st r

/-- R21, R37, R38, R39, R128: the seed and the tables are written by `KEYGEN` and `RESET` only, and by `KEYGEN` only while
there is no key schedule. -/
def Obligations.KeyScheduleIsImmutable : Prop :=
  ∀ (i : Instr) (s t : State), exec i s = .next t → i ≠ .reset → (s.ksvalid = true ∨ ∀ v, i ≠ .keygen v) →
    t.seed = s.seed ∧ t.ksvalid = s.ksvalid ∧ t.pt = s.pt ∧ t.itab = s.itab ∧ t.vsel = s.vsel

/-- R74: a send command leaves the receive side and a receive command the send side; neither changes `CTRL`. -/
def Obligations.SidesAreIndependent : Prop :=
  ∀ (i : Instr) (s t : State), exec i s = .next t →
    (isSendCommand i → t = { s with txbuf := t.txbuf, txlen := t.txlen, response := t.response }) ∧
    (isReceiveCommand i → t.txbuf = s.txbuf ∧ t.txlen = s.txlen ∧ t.ctrl = s.ctrl)

/-- R72, R182: while a frame waits to be read out it does not change, until `TXDONE` or `RESET`. -/
def Obligations.WaitingFrameIsLocked : Prop :=
  ∀ (i : Instr) (s t : State), s.txlen ≠ 0 → exec i s = .next t → i ≠ .txdone → i ≠ .reset →
    t.txbuf = s.txbuf ∧ t.txlen = s.txlen

/-- R46 (f): but for `RESET`, `CTRL` changes only by `CTRLWR` on an idle block. -/
def Obligations.CtrlChangesOnlyWhenIdle : Prop :=
  ∀ (i : Instr) (s t : State), exec i s = .next t → t.ctrl ≠ s.ctrl → i ≠ .reset →
    (∃ v, i = .ctrlwr v ∧ t.ctrl = v) ∧ s.fstate = .awaitHeader ∧ s.rxlen = 0 ∧ s.txlen = 0

/-- R177: in AUTO mode, the moves of the framer that its table allows. -/
def Obligations.FramerMoves : Prop :=
  ∀ (i : Instr) (s t : State), exec i s = .next t → s.ctrl.getLsbD 1 = true → t.fstate ≠ s.fstate →
    (∃ b, i = .rxpush b) ∧ s.fstate = .awaitHeader ∧ s.rxlen.toNat + 1 ≥ 6 ∨
    (∃ b, i = .rxpush b) ∧ s.fstate = .awaitBody ∧ s.rxlen.toNat + 1 ≥ s.need.toNat ∧
      (t.fstate = .ready ∨ t.fstate = .failed) ∨
    i = .rxnext ∧ s.fstate = .ready ∧ t.fstate = .awaitHeader ∨
    i = .linkdown ∧ t.fstate = .failed ∨
    i = .reset ∧ t.fstate = .awaitHeader

/-- R71: what a header decode leaves in the header registers depends on the table, the direction and the five bytes alone, on
nothing of any earlier frame. -/
def Obligations.HeaderDecodeForgetsEarlierFrames : Prop :=
  ∀ s u : State, s.fstate ≠ .failed → u.fstate ≠ .failed → s.ksvalid = true → u.ksvalid = true →
    s.ctrl.getLsbD 1 = false → u.ctrl = s.ctrl → 6 ≤ s.rxlen.toNat → 6 ≤ u.rxlen.toNat → u.pt = s.pt →
    (∀ a, a < 5 → u.rxbuf.read a = s.rxbuf.read a) →
    ∃ t v, exec .dechdr s = .next t ∧ exec .dechdr u = .next v ∧ v.blen = t.blen ∧ v.cmd = t.cmd ∧ v.tsalt = t.tsalt ∧
      v.rsalt = t.rsalt ∧ v.kval = t.kval ∧ v.dlen = t.dlen ∧ v.ck = t.ck ∧ v.response = t.response

/-- R163 (a): a frame that `DECBODY` accepts is rejected when its byte 5 is changed. -/
def Obligations.ChangedChecksumByteIsRejected : Prop :=
  ∀ (s t : State) (m : Memory 8), exec .decbody s = .next t → t.response = some ⟨0x00, 1⟩ → s.rxbuf.wf → m.wf →
    (∀ a, a ≠ 5 → m.read a = s.rxbuf.read a) → m.read 5 ≠ s.rxbuf.read 5 →
    ∃ v, exec .decbody { s with rxbuf := m } = .next v ∧ v.response = some ⟨0x00, 0⟩

/-! ## Round trips, and the machine as a whole -/

/-- R162: a frame that `ENCRYPT` makes, placed in the buffer of a receiver with the same table and the matching direction, is
decoded by `DECHDR` and accepted by `DECBODY`, which restore the size, the command id and every plain body byte. -/
def Obligations.StreamCodecRoundTrip : Prop :=
  ∀ (size c : BitVec 11) (tx sent rx : State), 6 ≤ size.toNat → tx.fstate ≠ .failed → tx.ksvalid = true → tx.txlen = 0 →
    tx.txbuf.wf → exec (.encrypt size c) tx = .next sent →
    rx.fstate ≠ .failed → rx.ksvalid = true → rx.ctrl.getLsbD 1 = false → rx.rxbuf.wf → rx.rxlen = size →
    rx.pt = tx.pt → rx.rxdir = tx.txdir → (∀ a, a < size.toNat → rx.rxbuf.read a = sent.txbuf.read a) →
    ∃ h v, exec .dechdr rx = .next h ∧ h.response = some ⟨0x00, size.setWidth 32⟩ ∧
      h.blen = size.setWidth 16 ∧ h.cmd = c.setWidth 16 ∧ h.tsalt = 1 ∧ h.rsalt = 1 ∧ h.kval = 2 ∧
      h.dlen.toNat = size.toNat - 2 ∧
      exec .decbody h = .next v ∧ v.response = some ⟨0x00, 1⟩ ∧
      ∀ a, 6 ≤ a → a < size.toNat → v.rxbuf.read a = tx.txbuf.read a

/-- R195: the same for the alternate codec, whose plain frame from offset 2 on comes back. -/
def Obligations.AltCodecRoundTrip : Prop :=
  ∀ (size : BitVec 11) (tx sent rx : State), 6 ≤ size.toNat → tx.fstate ≠ .failed → tx.txlen = 0 → tx.txbuf.wf →
    exec (.aencrypt size) tx = .next sent →
    rx.fstate ≠ .failed → rx.ctrl.getLsbD 1 = false → rx.rxbuf.wf → rx.rxlen = size →
    (∀ a, a < size.toNat → rx.rxbuf.read a = sent.txbuf.read a) →
    ∃ h v, exec .adechdr rx = .next h ∧ h.response = some ⟨0x00, size.setWidth 32⟩ ∧
      exec .adecbody h = .next v ∧ v.response = some ⟨0x00, 1⟩ ∧
      ∀ a, 2 ≤ a → a < size.toNat → v.rxbuf.read a = tx.txbuf.read a

/-- R162, R183: a payload that `TXSEND` frames under the stream codec and that reaches a block in AUTO mode byte by byte is
delivered: the last byte makes the framer `Ready`, and `RXPKT` reports the command id and the payload length. -/
def Obligations.SentPayloadIsDelivered : Prop :=
  ∀ (n c : BitVec 11) (tx sent rx : State), n.toNat ≤ 2039 → tx.fstate ≠ .failed → tx.ctrl.getLsbD 0 = false →
    tx.ksvalid = true → tx.txlen = 0 → tx.txbuf.wf → exec (.txsend n c) tx = .next sent →
    rx.fstate = .awaitHeader → rx.rxlen = 0 → rx.ctrl.getLsbD 1 = true → rx.ctrl.getLsbD 0 = false →
    rx.ksvalid = true → rx.rxbuf.wf → rx.pt = tx.pt → rx.rxdir = tx.txdir →
    ∃ v, pushAll (bytesOf sent.txbuf 0 (n.toNat + 8)) rx = .next v ∧ v.response = some ⟨0x00, 2⟩ ∧ v.fstate = .ready ∧
      exec .rxpkt v = .next (answered v 0x00 (c.setWidth 32 ||| n.setWidth 32 <<< 16)) ∧
      ∀ a, 6 ≤ a → a < 6 + n.toNat → v.rxbuf.read a = tx.txbuf.read a

/-- The invariants of R46 hold of the reset state, whatever words the host is about to give. -/
def Obligations.InvariantHoldsAtReset : Prop := ∀ q : List Command, Invariant { State.reset with pending := q }

/-- R46: "These hold after reset and after every command". -/
def Obligations.InvariantKeptByEveryStep : Prop := ∀ s t : State, Invariant s → step s = .next t → Invariant t

/-- R202, R46: under the invariants every command completes, but for a `KEYGEN` whose key schedule never ends (R129): no
sequence of bytes makes the block index outside a buffer or leaves a rule undefined. -/
def Obligations.EveryCommandCompletesUnderTheInvariant : Prop :=
  ∀ (i : Instr) (s : State), Invariant s →
    (∃ t, exec i s = .next t) ∨
      ∃ seed, i = .keygen seed ∧ ks Config.hardware seed = none ∧ exec i s = .fault .keygenNeverEnds

/-- R46, R202, R220: whatever words the host gives from reset, every state the block comes to satisfies the invariants, and
from it the block goes on but for a `KEYGEN` whose key schedule never ends. -/
def Obligations.ReachableStatesAreSafe : Prop :=
  ∀ s : State, Reachable s → Invariant s ∧ ∀ f, step s = .fault f → f = .keygenNeverEnds
end

