-- ==== Sys2Proof/Laws/Memory.lean ====
section
/-! SUPPORT. The laws of a memory: a cell reads what was last written to it, a write leaves every other cell alone, and every
operation keeps the canonical form and lists no cell but those it was given. -/

namespace Sys2Proof.Machine

variable {w : Nat}

@[simp] theorem unlistedCell_eq_zero : unlistedCell w = 0 := rfl

@[simp] theorem Memory.read_nil (a : Nat) : Memory.read ([] : Memory w) a = 0 := rfl

theorem Memory.read_cons (c : Nat × BitVec w) (m : Memory w) (a : Nat) :
    Memory.read (c :: m) a = if c.1 = a then c.2 else m.read a := rfl

/-! ## The canonical form, entry by entry -/

theorem Memory.wf_nil : Memory.wf ([] : Memory w) := ⟨List.Pairwise.nil, by simp⟩

theorem Memory.wf_cons (c : Nat × BitVec w) (m : Memory w) :
    Memory.wf (c :: m) ↔ (∀ e ∈ m, c.1 < e.1) ∧ c.2 ≠ 0 ∧ m.wf := by
  simp only [Memory.wf, List.map_cons, List.pairwise_cons, List.mem_map, List.mem_cons, forall_eq_or_imp]
  constructor
  · rintro ⟨⟨h1, h2⟩, h3, h4⟩
    exact ⟨fun e he => h1 e.1 ⟨e, he, rfl⟩, h3, h2, h4⟩
  · rintro ⟨h1, h3, h2, h4⟩
    exact ⟨⟨by rintro a ⟨e, he, rfl⟩; exact h1 e he, h2⟩, h3, h4⟩

/-- A cell below every listed address reads 0. -/
theorem Memory.read_of_below {m : Memory w} {a : Nat} (h : ∀ e ∈ m, a < e.1) : m.read a = 0 := by
  induction m with
  | nil => rfl
  | cons c m ih =>
    have hc := h c (by simp)
    rw [Memory.read_cons, if_neg (by omega)]
    exact ih fun e he => h e (by simp [he])

/-! ## Writing one cell -/

/-- Writing a cell adds no entry but that cell's. -/
theorem Memory.mem_write {m : Memory w} {b : Nat} {v : BitVec w} {e : Nat × BitVec w} (h : e ∈ m.write b v) :
    e = (b, v) ∨ e ∈ m := by
  induction m with
  | nil =>
    simp only [Memory.write] at h
    split at h <;> simp_all
  | cons c m ih =>
    simp only [Memory.write] at h
    split at h
    · split at h <;> simp_all
    · split at h
      · split at h
        · exact .inr (by simp [h])
        · rcases List.mem_cons.1 h with h | h
          · exact .inl h
          · exact .inr (by simp [h])
      · rcases List.mem_cons.1 h with h | h
        · exact .inr (by simp [h])
        · rcases ih h with h | h
          · exact .inl h
          · exact .inr (by simp [h])

theorem Memory.wf_write {m : Memory w} (h : m.wf) (b : Nat) (v : BitVec w) : (m.write b v).wf := by
  induction m with
  | nil =>
    simp only [Memory.write]
    split
    · exact Memory.wf_nil
    · next hv => exact (Memory.wf_cons _ _).2 ⟨by simp, hv, Memory.wf_nil⟩
  | cons c m ih =>
    obtain ⟨h1, h2, h3⟩ := (Memory.wf_cons _ _).1 h
    simp only [Memory.write]
    split
    · next hb =>
      split
      · exact h
      · next hv =>
        refine (Memory.wf_cons _ _).2 ⟨?_, hv, h⟩
        intro e he
        rcases List.mem_cons.1 he with rfl | he
        · exact hb
        · exact lt_trans hb (h1 e he)
    · next hb =>
      split
      · next hab =>
        split
        · exact h3
        · next hv => exact (Memory.wf_cons _ _).2 ⟨by simpa [← hab] using h1, hv, h3⟩
      · next hab =>
        refine (Memory.wf_cons _ _).2 ⟨?_, h2, ih h3⟩
        intro e he
        rcases Memory.mem_write he with rfl | he
        · show c.1 < b
          omega
        · exact h1 e he

/-- A write leaves every other cell alone. -/
theorem Memory.read_write_ne (m : Memory w) {a b : Nat} (h : a ≠ b) (v : BitVec w) : (m.write b v).read a = m.read a := by
  induction m with
  | nil =>
    simp only [Memory.write]
    split
    · rfl
    · simp [Memory.read_cons, Ne.symm h]
  | cons c m ih =>
    simp only [Memory.write]
    split
    · split
      · rfl
      · simp [Memory.read_cons, Ne.symm h]
    · split
      · next hab => split <;> simp [Memory.read_cons, hab, Ne.symm h]
      · simp [Memory.read_cons, ih]

/-- A cell reads what was last written to it. -/
theorem Memory.read_write_same {m : Memory w} (h : m.wf) (b : Nat) (v : BitVec w) : (m.write b v).read b = v := by
  induction m with
  | nil =>
    simp only [Memory.write]
    split
    · next hv => simpa using hv.symm
    · simp [Memory.read_cons]
  | cons c m ih =>
    obtain ⟨h1, _, h3⟩ := (Memory.wf_cons _ _).1 h
    simp only [Memory.write]
    split
    · next hb =>
      split
      · next hv =>
        rw [Memory.read_of_below, hv]
        · rfl
        · intro e he
          rcases List.mem_cons.1 he with rfl | he
          · exact hb
          · exact lt_trans hb (h1 e he)
      · simp [Memory.read_cons]
    · split
      · next hab =>
        split
        · next hv =>
          rw [Memory.read_of_below (by simpa [← hab] using h1), hv]
          rfl
        · simp [Memory.read_cons]
      · next hab => simp [Memory.read_cons, hab, ih h3]

theorem Memory.read_write {m : Memory w} (h : m.wf) (a b : Nat) (v : BitVec w) :
    (m.write b v).read a = if a = b then v else m.read a := by
  split
  · next hab => rw [hab, Memory.read_write_same h]
  · next hab => exact Memory.read_write_ne m hab v

/-! ## Writing a list of cells -/

theorem Memory.wf_writeList {m : Memory w} (h : m.wf) (a : Nat) (vs : List (BitVec w)) : (m.writeList a vs).wf := by
  induction vs generalizing m a with
  | nil => exact h
  | cons v vs ih => exact ih (Memory.wf_write h a v) (a + 1)

theorem Memory.mem_writeList {m : Memory w} {a : Nat} {vs : List (BitVec w)} {e : Nat × BitVec w}
    (h : e ∈ m.writeList a vs) : (a ≤ e.1 ∧ e.1 < a + vs.length) ∨ e ∈ m := by
  induction vs generalizing m a with
  | nil => exact .inr h
  | cons v vs ih =>
    rcases ih h with h | h
    · exact .inl ⟨by omega, by simp only [List.length_cons]; omega⟩
    · rcases Memory.mem_write h with rfl | h
      · exact .inl ⟨le_refl _, by simp only [List.length_cons]; omega⟩
      · exact .inr h

/-- The cells of the list read what was written, and every other cell is left alone. -/
theorem Memory.read_writeList {m : Memory w} (h : m.wf) (a : Nat) (vs : List (BitVec w)) (b : Nat) :
    (m.writeList a vs).read b = if a ≤ b then vs.getD (b - a) (m.read b) else m.read b := by
  induction vs generalizing m a with
  | nil => simp [Memory.writeList]
  | cons v vs ih =>
    rw [Memory.writeList, ih (Memory.wf_write h a v), Memory.read_write h]
    by_cases h1 : a ≤ b
    · by_cases h2 : b = a
      · subst h2
        simp
      · obtain ⟨k, rfl⟩ : ∃ k, b = a + 1 + k := ⟨b - (a + 1), by omega⟩
        have h3 : a + 1 + k - a = k + 1 := by omega
        simp [h1, h2, h3]
    · simp [h1, show ¬ a + 1 ≤ b by omega, show b ≠ a by omega]

/-! ## The memory of a list -/

theorem Memory.mem_ofListFrom {i : Nat} {vs : List (BitVec w)} {e : Nat × BitVec w} (h : e ∈ Memory.ofListFrom i vs) :
    i ≤ e.1 ∧ e.1 < i + vs.length := by
  induction vs generalizing i with
  | nil => simp [Memory.ofListFrom] at h
  | cons v vs ih =>
    simp only [Memory.ofListFrom] at h
    split at h
    · have := ih h
      simp only [List.length_cons]
      omega
    · rcases List.mem_cons.1 h with rfl | h
      · simp
      · have := ih h
        simp only [List.length_cons]
        omega

theorem Memory.wf_ofListFrom (i : Nat) (vs : List (BitVec w)) : (Memory.ofListFrom i vs).wf := by
  induction vs generalizing i with
  | nil => exact Memory.wf_nil
  | cons v vs ih =>
    simp only [Memory.ofListFrom]
    split
    · exact ih _
    · next hv =>
      refine (Memory.wf_cons _ _).2 ⟨?_, hv, ih _⟩
      intro e he
      have := (Memory.mem_ofListFrom he).1
      show i < e.1
      omega

theorem Memory.wf_ofList (vs : List (BitVec w)) : (Memory.ofList vs).wf := Memory.wf_ofListFrom 0 vs

theorem Memory.read_ofListFrom (i : Nat) (vs : List (BitVec w)) (b : Nat) :
    (Memory.ofListFrom i vs).read (i + b) = vs.getD b 0 := by
  induction vs generalizing i b with
  | nil => simp [Memory.ofListFrom]
  | cons v vs ih =>
    cases b with
    | zero =>
      simp only [Memory.ofListFrom]
      split
      · next hv =>
        rw [Memory.read_of_below]
        · simpa using hv.symm
        · intro e he
          have := (Memory.mem_ofListFrom he).1
          omega
      · simp [Memory.read_cons]
    | succ b =>
      have h := ih (i + 1) b
      rw [show i + 1 + b = i + (b + 1) by omega] at h
      simp only [Memory.ofListFrom]
      split
      · simpa using h
      · simpa [Memory.read_cons] using h

/-- Cell `b` of the memory of a list is its `b`-th value. -/
theorem Memory.read_ofList (vs : List (BitVec w)) (b : Nat) : (Memory.ofList vs).read b = vs.getD b 0 := by
  have h := Memory.read_ofListFrom 0 vs b
  rwa [Nat.zero_add] at h

/-! ## The memories of the reset state -/

theorem State.reset_memories_wf :
    State.reset.pt.wf ∧ State.reset.itab.wf ∧ State.reset.vsel.wf ∧ State.reset.rxbuf.wf ∧ State.reset.txbuf.wf :=
  ⟨Memory.wf_nil, Memory.wf_nil, Memory.wf_nil, Memory.wf_nil, Memory.wf_nil⟩

end Sys2Proof.Machine
end

