-- ==== Sys2Proof/Laws/Loops.lean ====
section
/-! SUPPORT. What the loops of the procedures do, each said once: the three byte loops of R159, R161 and R191 to R193, and
the loops of the key schedule (R125 to R127). -/

namespace Sys2Proof.Machine

open Sys2Proof.Safety

/-! ## The byte loops keep the canonical form and list no cell outside their range -/

theorem wf_decryptBytes (p : Params) (pt : Memory 32) (r : BitVec 4) (t : BitVec 11) (n i : Nat) {m : Memory 8} (ck : Byte)
    (h : m.wf) : (decryptBytes p pt r t n i m ck).1.wf := by
  induction n generalizing i m ck with
  | zero => exact h
  | succ n ih => exact ih (i + 1) _ (Memory.wf_write h _ _)

theorem mem_decryptBytes (p : Params) (pt : Memory 32) (r : BitVec 4) (t : BitVec 11) (n i : Nat) {m : Memory 8} (ck : Byte)
    {e : Nat × BitVec 8} (h : e ∈ (decryptBytes p pt r t n i m ck).1) : (i ≤ e.1 ∧ e.1 < i + n) ∨ e ∈ m := by
  induction n generalizing i m ck with
  | zero => exact .inr h
  | succ n ih =>
    rcases ih (i + 1) _ h with h | h
    · exact .inl (by omega)
    · rcases Memory.mem_write h with rfl | h
      · exact .inl (by simp)
      · exact .inr h

theorem wf_encryptBytes (p : Params) (pt : Memory 32) (r : BitVec 4) (t : BitVec 11) (n i : Nat) {m : Memory 8} (ck : Byte)
    (h : m.wf) : (encryptBytes p pt r t n i m ck).1.wf := by
  induction n generalizing i m ck with
  | zero => exact h
  | succ n ih => exact ih (i + 1) _ (Memory.wf_write h _ _)

theorem mem_encryptBytes (p : Params) (pt : Memory 32) (r : BitVec 4) (t : BitVec 11) (n i : Nat) {m : Memory 8} (ck : Byte)
    {e : Nat × BitVec 8} (h : e ∈ (encryptBytes p pt r t n i m ck).1) : (i ≤ e.1 ∧ e.1 < i + n) ∨ e ∈ m := by
  induction n generalizing i m ck with
  | zero => exact .inr h
  | succ n ih =>
    rcases ih (i + 1) _ h with h | h
    · exact .inl (by omega)
    · rcases Memory.mem_write h with rfl | h
      · exact .inl (by simp)
      · exact .inr h

theorem wf_xorBytes (x : Byte) (n i : Nat) {m : Memory 8} (h : m.wf) : (xorBytes x n i m).wf := by
  induction n generalizing i m with
  | zero => exact h
  | succ n ih => exact ih (i + 1) (Memory.wf_write h _ _)

theorem mem_xorBytes (x : Byte) (n i : Nat) {m : Memory 8} {e : Nat × BitVec 8} (h : e ∈ xorBytes x n i m) :
    (i ≤ e.1 ∧ e.1 < i + n) ∨ e ∈ m := by
  induction n generalizing i m with
  | zero => exact .inr h
  | succ n ih =>
    rcases ih (i + 1) h with h | h
    · exact .inl (by omega)
    · rcases Memory.mem_write h with rfl | h
      · exact .inl (by simp)
      · exact .inr h

/-! ## What the byte loops leave in each cell -/

/-- A body byte in the range is XORed with its keystream byte, every other byte is left alone (R159). -/
theorem read_decryptBytes (p : Params) (pt : Memory 32) (r : BitVec 4) (t : BitVec 11) (n i : Nat) {m : Memory 8} (ck : Byte)
    (h : m.wf) (a : Nat) :
    (decryptBytes p pt r t n i m ck).1.read a =
      if i ≤ a ∧ a < i + n then m.read a ^^^ bodyKeystream pt r t a else m.read a := by
  induction n generalizing i m ck with
  | zero => simp [decryptBytes, show ¬ (i ≤ a ∧ a < i) by omega]
  | succ n ih =>
    rw [decryptBytes, ih (i + 1) _ (Memory.wf_write h _ _), Memory.read_write h]
    by_cases h1 : a = i
    · subst h1
      simp
    · by_cases h2 : i + 1 ≤ a ∧ a < i + 1 + n
      · rw [if_pos h2, if_neg h1, if_pos (by omega)]
      · rw [if_neg h2, if_neg h1, if_neg (by omega)]

/-- A body byte in the range is XORed with its keystream byte, every other byte is left alone (R161). -/
theorem read_encryptBytes (p : Params) (pt : Memory 32) (r : BitVec 4) (t : BitVec 11) (n i : Nat) {m : Memory 8} (ck : Byte)
    (h : m.wf) (a : Nat) :
    (encryptBytes p pt r t n i m ck).1.read a =
      if i ≤ a ∧ a < i + n then m.read a ^^^ bodyKeystream pt r t a else m.read a := by
  induction n generalizing i m ck with
  | zero => simp [encryptBytes, show ¬ (i ≤ a ∧ a < i) by omega]
  | succ n ih =>
    rw [encryptBytes, ih (i + 1) _ (Memory.wf_write h _ _), Memory.read_write h]
    by_cases h1 : a = i
    · subst h1
      simp
    · by_cases h2 : i + 1 ≤ a ∧ a < i + 1 + n
      · rw [if_pos h2, if_neg h1, if_pos (by omega)]
      · rw [if_neg h2, if_neg h1, if_neg (by omega)]

/-- A byte in the range is XORed with the constant, every other byte is left alone (R191 to R193). -/
theorem read_xorBytes (x : Byte) (n i : Nat) {m : Memory 8} (h : m.wf) (a : Nat) :
    (xorBytes x n i m).read a = if i ≤ a ∧ a < i + n then m.read a ^^^ x else m.read a := by
  induction n generalizing i m with
  | zero => simp [xorBytes, show ¬ (i ≤ a ∧ a < i) by omega]
  | succ n ih =>
    rw [xorBytes, ih (i + 1) (Memory.wf_write h _ _), Memory.read_write h]
    by_cases h1 : a = i
    · subst h1
      simp
    · by_cases h2 : i + 1 ≤ a ∧ a < i + 1 + n
      · rw [if_pos h2, if_neg h1, if_pos (by omega)]
      · rw [if_neg h2, if_neg h1, if_neg (by omega)]

/-! ## The checksum the byte loops compute -/

/-- The plain bytes, in order, are folded into the checksum (R159). -/
theorem decryptBytes_checksum (p : Params) (pt : Memory 32) (r : BitVec 4) (t : BitVec 11) (n i : Nat) {m : Memory 8}
    (ck : Byte) :
    (decryptBytes p pt r t n i m ck).2 =
      ((List.range' i n).map fun a => m.read a ^^^ bodyKeystream pt r t a).foldl (foldByte p) ck := by
  induction n generalizing i m ck with
  | zero => rfl
  | succ n ih =>
    rw [decryptBytes, ih, List.range'_succ, List.map_cons, List.foldl_cons]
    congr 1
    refine List.map_congr_left fun a ha => ?_
    rw [List.mem_range'_1] at ha
    rw [Memory.read_write_ne _ (by omega)]

/-- The plain bytes, in order, are folded into the checksum (R161). -/
theorem encryptBytes_checksum (p : Params) (pt : Memory 32) (r : BitVec 4) (t : BitVec 11) (n i : Nat) {m : Memory 8}
    (ck : Byte) :
    (encryptBytes p pt r t n i m ck).2 = ((List.range' i n).map m.read).foldl (foldByte p) ck := by
  induction n generalizing i m ck with
  | zero => rfl
  | succ n ih =>
    rw [encryptBytes, ih, List.range'_succ, List.map_cons, List.foldl_cons]
    congr 1
    refine List.map_congr_left fun a ha => ?_
    rw [List.mem_range'_1] at ha
    rw [Memory.read_write_ne _ (by omega)]

/-! ## The loops of the key schedule -/

/-- A draw accepted by a rejection loop is of the loop's variant, reduced, and not among the stored values (R126, R127). -/
theorem drawFresh_not_stored {p : Params} {x : Variant} {reduce : Word → Word} {stored : List Word} {n : Nat} {g : Generator}
    {v : Word} {g' : Generator} (h : drawFresh p x reduce stored n g = some (v, g')) :
    v ∉ stored ∧ ∃ o, v = reduce o := by
  induction n generalizing g with
  | zero => simp [drawFresh] at h
  | succ n ih =>
    simp only [drawFresh] at h
    split at h
    · exact ih h
    · next hv =>
      simp only [Option.some.injEq, Prod.mk.injEq] at h
      exact ⟨h.1 ▸ hv, _, h.1.symm⟩

/-- Filling `n` slots puts `n` reduced values before the stored ones, all different if those were (R126, R127). -/
theorem fillSlots_spec {p : Params} {x : Variant} {reduce : Word → Word} {n : Nat} {g g' : Generator}
    {stored stored' : List Word} (h : fillSlots p x reduce n g stored = some (stored', g')) :
    stored'.length = stored.length + n ∧ (stored.Nodup → stored'.Nodup) ∧
      ∀ v ∈ stored', v ∈ stored ∨ ∃ o, v = reduce o := by
  induction n generalizing g stored with
  | zero =>
    simp only [fillSlots, Option.some.injEq, Prod.mk.injEq] at h
    obtain ⟨rfl, rfl⟩ := h
    exact ⟨by omega, fun hn => hn, fun v hv => .inl hv⟩
  | succ n ih =>
    simp only [fillSlots] at h
    split at h
    · simp at h
    · next v g'' hd =>
      obtain ⟨hv, o, ho⟩ := drawFresh_not_stored hd
      obtain ⟨h1, h2, h3⟩ := ih h
      refine ⟨by simp only [List.length_cons] at h1; omega, fun hn => h2 (List.nodup_cons.2 ⟨hv, hn⟩), fun u hu => ?_⟩
      rcases h3 u hu with hu | hu
      · rcases List.mem_cons.1 hu with rfl | hu
        · exact .inr ⟨o, ho⟩
        · exact .inl hu
      · exact .inr hu

/-- The rows hold 2048 values each, all different over the whole table (R126). -/
theorem fillRows_spec {p : Params} {xs : List Variant} {g g' : Generator} {stored stored' : List Word}
    (h : fillRows p xs g stored = some (stored', g')) :
    stored'.length = stored.length + 2048 * xs.length ∧ (stored.Nodup → stored'.Nodup) := by
  induction xs generalizing g stored with
  | nil =>
    simp only [fillRows, Option.some.injEq, Prod.mk.injEq] at h
    obtain ⟨rfl, rfl⟩ := h
    exact ⟨by simp, fun hn => hn⟩
  | cons x xs ih =>
    simp only [fillRows] at h
    split at h
    · simp at h
    · next s1 g1 hf =>
      obtain ⟨h1, h2, _⟩ := fillSlots_spec hf
      obtain ⟨h3, h4⟩ := ih h
      exact ⟨by simp only [List.length_cons]; omega, fun hn => h4 (h2 hn)⟩

theorem drawSelectors_length (p : Params) (n : Nat) (g : Generator) : (drawSelectors p n g).1.length = n := by
  induction n generalizing g with
  | zero => rfl
  | succ n ih => simp [drawSelectors, ih]

/-- What a completed key schedule is made of (R124 to R127). -/
theorem ks_spec {p : Params} {seed : Word} {k : KeyTables} (h : ks p seed = some k) :
    ∃ (sel : List (BitVec 2)) (pt itab : List Word),
      sel = (drawSelectors p 17 (newGenerator (draw p (newGenerator seed) .D).1)).1 ∧
      pt.length = 32768 ∧ pt.Nodup ∧ itab.length = 512 ∧ itab.Nodup ∧ (∀ v ∈ itab, ∃ o, v = o &&& 0x7FF#32) ∧
      k = ⟨Memory.ofList sel, Memory.ofList pt.reverse, Memory.ofList (itab.reverse.map (BitVec.setWidth 16))⟩ := by
  unfold ks at h
  extract_lets m sel at h
  split at h
  · simp at h
  · next pt g hr =>
    split at h
    · simp at h
    · next itab g' hi =>
      obtain ⟨h1, h2⟩ := fillRows_spec hr
      obtain ⟨h3, h4, h5⟩ := fillSlots_spec hi
      simp only [Option.some.injEq] at h
      refine ⟨_, pt, itab, rfl, ?_, h2 List.nodup_nil, h3.trans (Nat.zero_add _), h4 List.nodup_nil, ?_, h.symm⟩
      · have hs : sel.1.length = 17 := drawSelectors_length p 17 _
        simp only [List.length_map, List.length_take, List.length_nil, hs] at h1
        omega
      · intro v hv
        rcases h5 v hv with hv | hv
        · exact absurd hv List.not_mem_nil
        · exact hv

theorem mem_ofList_lt {w : Nat} {vs : List (BitVec w)} {e : Nat × BitVec w} (h : e ∈ Memory.ofList vs) : e.1 < vs.length := by
  have := (Memory.mem_ofListFrom h).2
  omega

/-- The tables of a key schedule are canonical and list no cell outside their spaces. -/
theorem ks_tables {p : Params} {seed : Word} {k : KeyTables} (h : ks p seed = some k) :
    k.pt.wf ∧ k.itab.wf ∧ k.vsel.wf ∧ WithinCells k.pt 32768 ∧ WithinCells k.itab 512 ∧ WithinCells k.vsel 17 := by
  obtain ⟨sel, pt, itab, hs, h1, _, h2, _, _, rfl⟩ := ks_spec h
  refine ⟨Memory.wf_ofList _, Memory.wf_ofList _, Memory.wf_ofList _, ?_, ?_, ?_⟩
  · intro e he
    have := mem_ofList_lt he
    simpa [h1] using this
  · intro e he
    have := mem_ofList_lt he
    simpa [h2] using this
  · intro e he
    have := mem_ofList_lt he
    simpa [hs, drawSelectors_length] using this

/-! ## Which draw each slot of the key schedule takes -/

/-- The generator `new(v)` after `c y` draws of each variant `y` (R121, R122). -/
def generatorAfter (p : Params) (v : Word) (c : Variant → Nat) : Generator :=
  ⟨variantState p .A v (c .A), variantState p .B v (c .B), variantState p .C v (c .C), variantState p .D v (c .D)⟩

theorem generatorAfter_zero (p : Params) (v : Word) : generatorAfter p v (fun _ => 0) = newGenerator v := rfl

/-- A draw yields the variant's next output and moves that variant alone (R121). -/
theorem draw_generatorAfter (p : Params) (v : Word) (c : Variant → Nat) (x : Variant) :
    draw p (generatorAfter p v c) x =
      (variantOutput p x v (c x), generatorAfter p v (Function.update c x (c x + 1))) := by
  cases x <;> rfl

/-- Selectors come from the outputs of variant B, in order (R125). -/
theorem drawSelectors_draws (p : Params) (v : Word) (n : Nat) (c : Variant → Nat) :
    drawSelectors p n (generatorAfter p v c) =
      ((List.range' (c .B) n).map fun i => selectorOf (variantOutput p .B v i),
        generatorAfter p v (Function.update c .B (c .B + n))) := by
  induction n generalizing c with
  | zero => simp [drawSelectors]
  | succ n ih =>
    simp [drawSelectors, draw_generatorAfter, ih, List.range'_succ, Nat.add_assoc, Nat.add_comm 1 n]

/-- A rejection loop takes the variant's first output, from its present one on, that is not stored once reduced (R126, R127). -/
theorem drawFresh_draws {p : Params} {x : Variant} {reduce : Word → Word} {stored : List Word} {n : Nat} {v w : Word}
    {c : Variant → Nat} {g' : Generator} (h : drawFresh p x reduce stored n (generatorAfter p v c) = some (w, g')) :
    ∃ k, c x ≤ k ∧ w = reduce (variantOutput p x v k) ∧ w ∉ stored ∧
      (∀ e, c x ≤ e → e < k → reduce (variantOutput p x v e) ∈ stored) ∧
      g' = generatorAfter p v (Function.update c x (k + 1)) := by
  induction n generalizing c with
  | zero => simp [drawFresh] at h
  | succ n ih =>
    simp only [drawFresh, draw_generatorAfter] at h
    split at h
    · next hm =>
      obtain ⟨k, h1, h2, h3, h4, h5⟩ := ih h
      rw [Function.update_self] at h1 h4
      refine ⟨k, by omega, h2, h3, fun e he hk => ?_, by rw [h5, Function.update_idem]⟩
      rcases Nat.eq_or_lt_of_le he with rfl | he
      · exact hm
      · exact h4 e he hk
    · next hm =>
      simp only [Option.some.injEq, Prod.mk.injEq] at h
      obtain ⟨rfl, rfl⟩ := h
      exact ⟨c x, le_refl _, rfl, hm, fun e h1 h2 => by omega, rfl⟩

/-- The cells of a table whose values are listed latest first. -/
def cellsOf (stored : List Word) (f : Nat) : Word := stored.reverse.getD f 0

/-- The values stored first are the first cells of every later table. -/
theorem cellsOf_suffix {stored stored' : List Word} (h : stored <:+ stored') {f : Nat} (hf : f < stored.length) :
    cellsOf stored' f = cellsOf stored f := by
  obtain ⟨news, rfl⟩ := h
  simp only [cellsOf, List.reverse_append, List.getD_eq_getElem?_getD]
  rw [List.getElem?_append_left (by simpa using hf)]

theorem mem_iff_cellsOf {stored : List Word} {a : Word} : a ∈ stored ↔ ∃ g, g < stored.length ∧ cellsOf stored g = a := by
  rw [← List.mem_reverse, List.mem_iff_getElem]
  simp only [cellsOf, List.length_reverse]
  constructor
  · rintro ⟨g, hg, rfl⟩
    exact ⟨g, hg, by rw [List.getD_eq_getElem _ _ (by simpa using hg)]⟩
  · rintro ⟨g, hg, rfl⟩
    exact ⟨g, hg, by rw [List.getD_eq_getElem _ _ (by simpa using hg)]⟩

/-- Which draw a cell took does not depend on later cells. -/
theorem takesDraw_congr {w : Nat} {draws : Nat → BitVec w} {start : Nat} {cell cell' : Nat → BitVec w} {f n : Nat}
    (h : TakesDraw draws start cell f n) (hc : ∀ g, g ≤ f → cell' g = cell g) : TakesDraw draws start cell' f n := by
  obtain ⟨h1, h2, h3, h4⟩ := h
  refine ⟨h1, by rw [hc f (le_refl _), h2], fun g hg => by rw [hc g (by omega)]; exact h3 g hg, fun e he hn => ?_⟩
  obtain ⟨g, hg, hv⟩ := h4 e he hn
  exact ⟨g, hg, by rw [hc g (by omega), hv]⟩

theorem takesDraw_unique {w : Nat} {draws : Nat → BitVec w} {start : Nat} {cell : Nat → BitVec w} {f n k : Nat}
    (h : TakesDraw draws start cell f n) (h' : TakesDraw draws start cell f k) : n = k := by
  rcases Nat.lt_trichotomy n k with hlt | rfl | hlt
  · obtain ⟨g, hg, hv⟩ := h'.2.2.2 n h.1 hlt
    exact absurd hv (h.2.2.1 g hg)
  · rfl
  · obtain ⟨g, hg, hv⟩ := h.2.2.2 k h'.1 hlt
    exact absurd hv (h'.2.2.1 g hg)

/-- Filling slots from a stream of which every draw from `start` on is stored already: each slot takes its draw, and every draw
made is stored (R126, R127). -/
theorem fillSlots_draws {p : Params} {x : Variant} {reduce : Word → Word} {n start : Nat} {v : Word} {c : Variant → Nat}
    {g' : Generator} {stored stored' : List Word}
    (h : fillSlots p x reduce n (generatorAfter p v c) stored = some (stored', g')) (hs : start ≤ c x)
    (hc : ∀ e, start ≤ e → e < c x → reduce (variantOutput p x v e) ∈ stored) :
    ∃ top, c x ≤ top ∧ g' = generatorAfter p v (Function.update c x top) ∧ stored <:+ stored' ∧
      stored'.length = stored.length + n ∧
      (∀ e, start ≤ e → e < top → reduce (variantOutput p x v e) ∈ stored') ∧
      (∀ f, stored.length ≤ f → f < stored.length + n →
        ∃ k, k < top ∧ TakesDraw (fun e => reduce (variantOutput p x v e)) start (cellsOf stored') f k) ∧
      (top = c x ∨ ∃ f k, stored.length ≤ f ∧ f < stored.length + n ∧
        TakesDraw (fun e => reduce (variantOutput p x v e)) start (cellsOf stored') f k ∧ top = k + 1) := by
  induction n generalizing c stored with
  | zero =>
    simp only [fillSlots, Option.some.injEq, Prod.mk.injEq] at h
    obtain ⟨rfl, rfl⟩ := h
    exact ⟨c x, le_refl _, by rw [Function.update_eq_self], List.suffix_refl _, rfl, hc, fun f h1 h2 => by omega, .inl rfl⟩
  | succ n ih =>
    simp only [fillSlots] at h
    split at h
    · simp at h
    · next w g'' hd =>
      obtain ⟨k, hk, rfl, hw, hrej, rfl⟩ := drawFresh_draws hd
      have hold : ∀ e, start ≤ e → e < k → reduce (variantOutput p x v e) ∈ stored := fun e he hek => by
        rcases Nat.lt_or_ge e (c x) with hlt | hge
        · exact hc e he hlt
        · exact hrej e hge hek
      obtain ⟨top, h1, h2, h3, h4, h5, h6, h7⟩ := ih h (by rw [Function.update_self]; omega) fun e he hek => by
        rw [Function.update_self] at hek
        rcases Nat.eq_or_lt_of_le (Nat.le_of_lt_succ hek) with rfl | hek
        · exact List.mem_cons_self
        · exact List.mem_cons_of_mem _ (hold e he hek)
      rw [Function.update_self] at h1 h7
      rw [Function.update_idem] at h2
      have hsuf : stored <:+ stored' := (List.suffix_cons _ _).trans h3
      have hslot : TakesDraw (fun e => reduce (variantOutput p x v e)) start (cellsOf stored') stored.length k := by
        refine ⟨by omega, ?_, fun g hg hv => ?_, fun e he hek => ?_⟩
        · rw [cellsOf_suffix h3 (by simp), cellsOf, List.reverse_cons]
          simp
        · exact hw (mem_iff_cellsOf.2 ⟨g, hg, by rw [← cellsOf_suffix hsuf hg, hv]⟩)
        · obtain ⟨g, hg, hv⟩ := mem_iff_cellsOf.1 (hold e he hek)
          exact ⟨g, hg, by rw [cellsOf_suffix hsuf hg, hv]⟩
      simp only [List.length_cons] at h4 h6 h7
      refine ⟨top, by omega, h2, hsuf, by omega, h5, fun f hf1 hf2 => ?_, .inr ?_⟩
      · rcases Nat.eq_or_lt_of_le hf1 with rfl | hf1
        · exact ⟨k, by omega, hslot⟩
        · exact h6 f hf1 (by omega)
      · rcases h7 with h7 | ⟨f, j, hf1, hf2, hj, h7⟩
        · exact ⟨stored.length, k, le_refl _, by omega, hslot, h7⟩
        · exact ⟨f, j, by omega, by omega, hj, h7⟩

/-- How far the permutation table is filled (R126): after `c y` draws of each variant `y`, of which those before `base y` were
not made for the table, every draw made for it is stored, the last one of each variant was taken by a slot, and each slot took
its draw. `rows r` is the variant of row `r`. -/
def TableFilled (p : Params) (v : Word) (rows : Nat → Variant) (base c : Variant → Nat) (stored : List Word) : Prop :=
  (∀ y, base y ≤ c y ∧ (∀ e, base y ≤ e → e < c y → variantOutput p y v e ∈ stored) ∧
    (c y = base y ∨ ∃ f k, f < stored.length ∧ rows (f / 2048) = y ∧
      TakesDraw (variantOutput p y v) (base y) (cellsOf stored) f k ∧ c y = k + 1)) ∧
  ∀ f, f < stored.length → ∃ k, k < c (rows (f / 2048)) ∧
    TakesDraw (variantOutput p (rows (f / 2048)) v) (base (rows (f / 2048))) (cellsOf stored) f k

theorem tableFilled_nil (p : Params) (v : Word) (rows : Nat → Variant) (base : Variant → Nat) :
    TableFilled p v rows base base [] :=
  ⟨fun _ => ⟨le_refl _, fun _ h1 h2 => by omega, .inl rfl⟩, fun _ h => absurd h (Nat.not_lt_zero _)⟩

/-- One more row keeps the table filled (R126). -/
theorem tableFilled_row {p : Params} {v : Word} {rows : Nat → Variant} {base c : Variant → Nat} {stored stored' : List Word}
    {g' : Generator} {r : Nat} (h : TableFilled p v rows base c stored) (hr : stored.length = 2048 * r)
    (hf : fillSlots p (rows r) id 2048 (generatorAfter p v c) stored = some (stored', g')) :
    ∃ c', g' = generatorAfter p v c' ∧ TableFilled p v rows base c' stored' := by
  obtain ⟨hy, hslots⟩ := h
  obtain ⟨hb, hm, _⟩ := hy (rows r)
  obtain ⟨top, h1, h2, h3, h4, h5, h6, h7⟩ := fillSlots_draws hf hb hm
  have hrow : ∀ f, stored.length ≤ f → f < stored.length + 2048 → rows (f / 2048) = rows r := fun f hf1 hf2 => by
    rw [show f / 2048 = r by omega]
  have hkeep : ∀ {y : Variant} {f k : Nat}, f < stored.length →
      TakesDraw (variantOutput p y v) (base y) (cellsOf stored) f k →
      TakesDraw (variantOutput p y v) (base y) (cellsOf stored') f k := fun hlt ht =>
    takesDraw_congr ht fun g hg => cellsOf_suffix h3 (by omega)
  refine ⟨_, h2, fun y => ?_, fun f hlt => ?_⟩
  · by_cases hyr : y = rows r
    · subst hyr
      rw [Function.update_self]
      refine ⟨by omega, h5, ?_⟩
      rcases h7 with h7 | ⟨f, k, hf1, hf2, hk, h7⟩
      · rcases (hy (rows r)).2.2 with h8 | ⟨f, k, hf1, hf2, hk, h8⟩
        · exact .inl (by omega)
        · exact .inr ⟨f, k, by omega, hf2, hkeep hf1 hk, by omega⟩
      · exact .inr ⟨f, k, by omega, hrow f hf1 hf2, hk, h7⟩
    · rw [Function.update_of_ne hyr]
      obtain ⟨h8, h9, h10⟩ := hy y
      refine ⟨h8, fun e he1 he2 => h3.subset (h9 e he1 he2), ?_⟩
      rcases h10 with h10 | ⟨f, k, hf1, hf2, hk, h10⟩
      · exact .inl h10
      · exact .inr ⟨f, k, by omega, hf2, hkeep hf1 hk, h10⟩
  · rcases Nat.lt_or_ge f stored.length with hold | hnew
    · obtain ⟨k, hk1, hk2⟩ := hslots f hold
      refine ⟨k, ?_, hkeep hold hk2⟩
      by_cases hyr : rows (f / 2048) = rows r
      · rw [hyr] at hk1 ⊢
        rw [Function.update_self]
        omega
      · rwa [Function.update_of_ne hyr]
    · rw [hrow f hnew (by omega), Function.update_self]
      exact h6 f hnew (by omega)

/-- Filling rows `r`, `r+1`, ... of the permutation table (R126). -/
theorem fillRows_draws {p : Params} {v : Word} {rows : Nat → Variant} {base : Variant → Nat} {n : Nat} :
    ∀ {r : Nat} {c : Variant → Nat} {stored stored' : List Word} {g' : Generator},
      TableFilled p v rows base c stored → stored.length = 2048 * r →
      fillRows p ((List.range' r n).map rows) (generatorAfter p v c) stored = some (stored', g') →
      ∃ c', g' = generatorAfter p v c' ∧ TableFilled p v rows base c' stored' := by
  induction n with
  | zero =>
    intro r c stored stored' g' h _ hf
    simp only [List.range'_zero, List.map_nil, fillRows, Option.some.injEq, Prod.mk.injEq] at hf
    obtain ⟨rfl, rfl⟩ := hf
    exact ⟨c, rfl, h⟩
  | succ n ih =>
    intro r c stored stored' g' h hr hf
    simp only [List.range'_succ, List.map_cons, fillRows] at hf
    split at hf
    · simp at hf
    · next s1 g1 h1 =>
      have hl := (fillSlots_spec h1).1
      obtain ⟨c1, rfl, h2⟩ := tableFilled_row h hr h1
      exact ih h2 (by omega) hf

end Sys2Proof.Machine
end

