-- ==== Sys2Proof/Laws/State.lean ====
section
/-! SUPPORT. Every field of every named update of the state, one lemma each, so that no later proof unfolds an update. -/

namespace Sys2Proof.Machine

variable (s : State)

/-! ### respond -/

@[simp] theorem State.respond_seed (st : BitVec 8) (r : BitVec 32) : (s.respond st r).seed = s.seed := rfl
@[simp] theorem State.respond_ksvalid (st : BitVec 8) (r : BitVec 32) : (s.respond st r).ksvalid = s.ksvalid := rfl
@[simp] theorem State.respond_blen (st : BitVec 8) (r : BitVec 32) : (s.respond st r).blen = s.blen := rfl
@[simp] theorem State.respond_cmd (st : BitVec 8) (r : BitVec 32) : (s.respond st r).cmd = s.cmd := rfl
@[simp] theorem State.respond_tsalt (st : BitVec 8) (r : BitVec 32) : (s.respond st r).tsalt = s.tsalt := rfl
@[simp] theorem State.respond_rsalt (st : BitVec 8) (r : BitVec 32) : (s.respond st r).rsalt = s.rsalt := rfl
@[simp] theorem State.respond_kval (st : BitVec 8) (r : BitVec 32) : (s.respond st r).kval = s.kval := rfl
@[simp] theorem State.respond_dlen (st : BitVec 8) (r : BitVec 32) : (s.respond st r).dlen = s.dlen := rfl
@[simp] theorem State.respond_ck (st : BitVec 8) (r : BitVec 32) : (s.respond st r).ck = s.ck := rfl
@[simp] theorem State.respond_fstate (st : BitVec 8) (r : BitVec 32) : (s.respond st r).fstate = s.fstate := rfl
@[simp] theorem State.respond_need (st : BitVec 8) (r : BitVec 32) : (s.respond st r).need = s.need := rfl
@[simp] theorem State.respond_err (st : BitVec 8) (r : BitVec 32) : (s.respond st r).err = s.err := rfl
@[simp] theorem State.respond_ctrl (st : BitVec 8) (r : BitVec 32) : (s.respond st r).ctrl = s.ctrl := rfl
@[simp] theorem State.respond_rxlen (st : BitVec 8) (r : BitVec 32) : (s.respond st r).rxlen = s.rxlen := rfl
@[simp] theorem State.respond_txlen (st : BitVec 8) (r : BitVec 32) : (s.respond st r).txlen = s.txlen := rfl
@[simp] theorem State.respond_pt (st : BitVec 8) (r : BitVec 32) : (s.respond st r).pt = s.pt := rfl
@[simp] theorem State.respond_itab (st : BitVec 8) (r : BitVec 32) : (s.respond st r).itab = s.itab := rfl
@[simp] theorem State.respond_vsel (st : BitVec 8) (r : BitVec 32) : (s.respond st r).vsel = s.vsel := rfl
@[simp] theorem State.respond_rxbuf (st : BitVec 8) (r : BitVec 32) : (s.respond st r).rxbuf = s.rxbuf := rfl
@[simp] theorem State.respond_txbuf (st : BitVec 8) (r : BitVec 32) : (s.respond st r).txbuf = s.txbuf := rfl
@[simp] theorem State.respond_pending (st : BitVec 8) (r : BitVec 32) : (s.respond st r).pending = s.pending := rfl
@[simp] theorem State.respond_response (st : BitVec 8) (r : BitVec 32) : (s.respond st r).response = some ⟨st, r⟩ := rfl
@[simp] theorem State.respond_codecAlt (st : BitVec 8) (r : BitVec 32) : (s.respond st r).codecAlt = s.codecAlt := rfl
@[simp] theorem State.respond_auto (st : BitVec 8) (r : BitVec 32) : (s.respond st r).auto = s.auto := rfl
@[simp] theorem State.respond_txdir (st : BitVec 8) (r : BitVec 32) : (s.respond st r).txdir = s.txdir := rfl
@[simp] theorem State.respond_rxdir (st : BitVec 8) (r : BitVec 32) : (s.respond st r).rxdir = s.rxdir := rfl

/-! ### withPending -/

@[simp] theorem State.withPending_seed (q : List (BitVec 64)) : (s.withPending q).seed = s.seed := rfl
@[simp] theorem State.withPending_ksvalid (q : List (BitVec 64)) : (s.withPending q).ksvalid = s.ksvalid := rfl
@[simp] theorem State.withPending_blen (q : List (BitVec 64)) : (s.withPending q).blen = s.blen := rfl
@[simp] theorem State.withPending_cmd (q : List (BitVec 64)) : (s.withPending q).cmd = s.cmd := rfl
@[simp] theorem State.withPending_tsalt (q : List (BitVec 64)) : (s.withPending q).tsalt = s.tsalt := rfl
@[simp] theorem State.withPending_rsalt (q : List (BitVec 64)) : (s.withPending q).rsalt = s.rsalt := rfl
@[simp] theorem State.withPending_kval (q : List (BitVec 64)) : (s.withPending q).kval = s.kval := rfl
@[simp] theorem State.withPending_dlen (q : List (BitVec 64)) : (s.withPending q).dlen = s.dlen := rfl
@[simp] theorem State.withPending_ck (q : List (BitVec 64)) : (s.withPending q).ck = s.ck := rfl
@[simp] theorem State.withPending_fstate (q : List (BitVec 64)) : (s.withPending q).fstate = s.fstate := rfl
@[simp] theorem State.withPending_need (q : List (BitVec 64)) : (s.withPending q).need = s.need := rfl
@[simp] theorem State.withPending_err (q : List (BitVec 64)) : (s.withPending q).err = s.err := rfl
@[simp] theorem State.withPending_ctrl (q : List (BitVec 64)) : (s.withPending q).ctrl = s.ctrl := rfl
@[simp] theorem State.withPending_rxlen (q : List (BitVec 64)) : (s.withPending q).rxlen = s.rxlen := rfl
@[simp] theorem State.withPending_txlen (q : List (BitVec 64)) : (s.withPending q).txlen = s.txlen := rfl
@[simp] theorem State.withPending_pt (q : List (BitVec 64)) : (s.withPending q).pt = s.pt := rfl
@[simp] theorem State.withPending_itab (q : List (BitVec 64)) : (s.withPending q).itab = s.itab := rfl
@[simp] theorem State.withPending_vsel (q : List (BitVec 64)) : (s.withPending q).vsel = s.vsel := rfl
@[simp] theorem State.withPending_rxbuf (q : List (BitVec 64)) : (s.withPending q).rxbuf = s.rxbuf := rfl
@[simp] theorem State.withPending_txbuf (q : List (BitVec 64)) : (s.withPending q).txbuf = s.txbuf := rfl
@[simp] theorem State.withPending_pending (q : List (BitVec 64)) : (s.withPending q).pending = q := rfl
@[simp] theorem State.withPending_response (q : List (BitVec 64)) : (s.withPending q).response = s.response := rfl
@[simp] theorem State.withPending_codecAlt (q : List (BitVec 64)) : (s.withPending q).codecAlt = s.codecAlt := rfl
@[simp] theorem State.withPending_auto (q : List (BitVec 64)) : (s.withPending q).auto = s.auto := rfl
@[simp] theorem State.withPending_txdir (q : List (BitVec 64)) : (s.withPending q).txdir = s.txdir := rfl
@[simp] theorem State.withPending_rxdir (q : List (BitVec 64)) : (s.withPending q).rxdir = s.rxdir := rfl

/-! ### setCtrl -/

@[simp] theorem State.setCtrl_seed (v : BitVec 4) : (s.setCtrl v).seed = s.seed := rfl
@[simp] theorem State.setCtrl_ksvalid (v : BitVec 4) : (s.setCtrl v).ksvalid = s.ksvalid := rfl
@[simp] theorem State.setCtrl_blen (v : BitVec 4) : (s.setCtrl v).blen = s.blen := rfl
@[simp] theorem State.setCtrl_cmd (v : BitVec 4) : (s.setCtrl v).cmd = s.cmd := rfl
@[simp] theorem State.setCtrl_tsalt (v : BitVec 4) : (s.setCtrl v).tsalt = s.tsalt := rfl
@[simp] theorem State.setCtrl_rsalt (v : BitVec 4) : (s.setCtrl v).rsalt = s.rsalt := rfl
@[simp] theorem State.setCtrl_kval (v : BitVec 4) : (s.setCtrl v).kval = s.kval := rfl
@[simp] theorem State.setCtrl_dlen (v : BitVec 4) : (s.setCtrl v).dlen = s.dlen := rfl
@[simp] theorem State.setCtrl_ck (v : BitVec 4) : (s.setCtrl v).ck = s.ck := rfl
@[simp] theorem State.setCtrl_fstate (v : BitVec 4) : (s.setCtrl v).fstate = s.fstate := rfl
@[simp] theorem State.setCtrl_need (v : BitVec 4) : (s.setCtrl v).need = s.need := rfl
@[simp] theorem State.setCtrl_err (v : BitVec 4) : (s.setCtrl v).err = s.err := rfl
@[simp] theorem State.setCtrl_ctrl (v : BitVec 4) : (s.setCtrl v).ctrl = v := rfl
@[simp] theorem State.setCtrl_rxlen (v : BitVec 4) : (s.setCtrl v).rxlen = s.rxlen := rfl
@[simp] theorem State.setCtrl_txlen (v : BitVec 4) : (s.setCtrl v).txlen = s.txlen := rfl
@[simp] theorem State.setCtrl_pt (v : BitVec 4) : (s.setCtrl v).pt = s.pt := rfl
@[simp] theorem State.setCtrl_itab (v : BitVec 4) : (s.setCtrl v).itab = s.itab := rfl
@[simp] theorem State.setCtrl_vsel (v : BitVec 4) : (s.setCtrl v).vsel = s.vsel := rfl
@[simp] theorem State.setCtrl_rxbuf (v : BitVec 4) : (s.setCtrl v).rxbuf = s.rxbuf := rfl
@[simp] theorem State.setCtrl_txbuf (v : BitVec 4) : (s.setCtrl v).txbuf = s.txbuf := rfl
@[simp] theorem State.setCtrl_pending (v : BitVec 4) : (s.setCtrl v).pending = s.pending := rfl
@[simp] theorem State.setCtrl_response (v : BitVec 4) : (s.setCtrl v).response = s.response := rfl

/-! ### pushByte -/

@[simp] theorem State.pushByte_seed (b : BitVec 8) : (s.pushByte b).seed = s.seed := rfl
@[simp] theorem State.pushByte_ksvalid (b : BitVec 8) : (s.pushByte b).ksvalid = s.ksvalid := rfl
@[simp] theorem State.pushByte_blen (b : BitVec 8) : (s.pushByte b).blen = s.blen := rfl
@[simp] theorem State.pushByte_cmd (b : BitVec 8) : (s.pushByte b).cmd = s.cmd := rfl
@[simp] theorem State.pushByte_tsalt (b : BitVec 8) : (s.pushByte b).tsalt = s.tsalt := rfl
@[simp] theorem State.pushByte_rsalt (b : BitVec 8) : (s.pushByte b).rsalt = s.rsalt := rfl
@[simp] theorem State.pushByte_kval (b : BitVec 8) : (s.pushByte b).kval = s.kval := rfl
@[simp] theorem State.pushByte_dlen (b : BitVec 8) : (s.pushByte b).dlen = s.dlen := rfl
@[simp] theorem State.pushByte_ck (b : BitVec 8) : (s.pushByte b).ck = s.ck := rfl
@[simp] theorem State.pushByte_fstate (b : BitVec 8) : (s.pushByte b).fstate = s.fstate := rfl
@[simp] theorem State.pushByte_need (b : BitVec 8) : (s.pushByte b).need = s.need := rfl
@[simp] theorem State.pushByte_err (b : BitVec 8) : (s.pushByte b).err = s.err := rfl
@[simp] theorem State.pushByte_ctrl (b : BitVec 8) : (s.pushByte b).ctrl = s.ctrl := rfl
@[simp] theorem State.pushByte_rxlen (b : BitVec 8) : (s.pushByte b).rxlen = s.rxlen + 1 := rfl
@[simp] theorem State.pushByte_txlen (b : BitVec 8) : (s.pushByte b).txlen = s.txlen := rfl
@[simp] theorem State.pushByte_pt (b : BitVec 8) : (s.pushByte b).pt = s.pt := rfl
@[simp] theorem State.pushByte_itab (b : BitVec 8) : (s.pushByte b).itab = s.itab := rfl
@[simp] theorem State.pushByte_vsel (b : BitVec 8) : (s.pushByte b).vsel = s.vsel := rfl
@[simp] theorem State.pushByte_rxbuf (b : BitVec 8) : (s.pushByte b).rxbuf = s.rxbuf.write s.rxlen.toNat b := rfl
@[simp] theorem State.pushByte_txbuf (b : BitVec 8) : (s.pushByte b).txbuf = s.txbuf := rfl
@[simp] theorem State.pushByte_pending (b : BitVec 8) : (s.pushByte b).pending = s.pending := rfl
@[simp] theorem State.pushByte_response (b : BitVec 8) : (s.pushByte b).response = s.response := rfl
@[simp] theorem State.pushByte_codecAlt (b : BitVec 8) : (s.pushByte b).codecAlt = s.codecAlt := rfl
@[simp] theorem State.pushByte_auto (b : BitVec 8) : (s.pushByte b).auto = s.auto := rfl
@[simp] theorem State.pushByte_txdir (b : BitVec 8) : (s.pushByte b).txdir = s.txdir := rfl
@[simp] theorem State.pushByte_rxdir (b : BitVec 8) : (s.pushByte b).rxdir = s.rxdir := rfl

/-! ### releaseFrame -/

@[simp] theorem State.releaseFrame_seed : (s.releaseFrame).seed = s.seed := rfl
@[simp] theorem State.releaseFrame_ksvalid : (s.releaseFrame).ksvalid = s.ksvalid := rfl
@[simp] theorem State.releaseFrame_blen : (s.releaseFrame).blen = s.blen := rfl
@[simp] theorem State.releaseFrame_cmd : (s.releaseFrame).cmd = s.cmd := rfl
@[simp] theorem State.releaseFrame_tsalt : (s.releaseFrame).tsalt = s.tsalt := rfl
@[simp] theorem State.releaseFrame_rsalt : (s.releaseFrame).rsalt = s.rsalt := rfl
@[simp] theorem State.releaseFrame_kval : (s.releaseFrame).kval = s.kval := rfl
@[simp] theorem State.releaseFrame_dlen : (s.releaseFrame).dlen = s.dlen := rfl
@[simp] theorem State.releaseFrame_ck : (s.releaseFrame).ck = s.ck := rfl
@[simp] theorem State.releaseFrame_fstate : (s.releaseFrame).fstate = .awaitHeader := rfl
@[simp] theorem State.releaseFrame_need : (s.releaseFrame).need = 6 := rfl
@[simp] theorem State.releaseFrame_err : (s.releaseFrame).err = s.err := rfl
@[simp] theorem State.releaseFrame_ctrl : (s.releaseFrame).ctrl = s.ctrl := rfl
@[simp] theorem State.releaseFrame_rxlen : (s.releaseFrame).rxlen = 0 := rfl
@[simp] theorem State.releaseFrame_txlen : (s.releaseFrame).txlen = s.txlen := rfl
@[simp] theorem State.releaseFrame_pt : (s.releaseFrame).pt = s.pt := rfl
@[simp] theorem State.releaseFrame_itab : (s.releaseFrame).itab = s.itab := rfl
@[simp] theorem State.releaseFrame_vsel : (s.releaseFrame).vsel = s.vsel := rfl
@[simp] theorem State.releaseFrame_rxbuf : (s.releaseFrame).rxbuf = s.rxbuf := rfl
@[simp] theorem State.releaseFrame_txbuf : (s.releaseFrame).txbuf = s.txbuf := rfl
@[simp] theorem State.releaseFrame_pending : (s.releaseFrame).pending = s.pending := rfl
@[simp] theorem State.releaseFrame_response : (s.releaseFrame).response = s.response := rfl
@[simp] theorem State.releaseFrame_codecAlt : (s.releaseFrame).codecAlt = s.codecAlt := rfl
@[simp] theorem State.releaseFrame_auto : (s.releaseFrame).auto = s.auto := rfl
@[simp] theorem State.releaseFrame_txdir : (s.releaseFrame).txdir = s.txdir := rfl
@[simp] theorem State.releaseFrame_rxdir : (s.releaseFrame).rxdir = s.rxdir := rfl

/-! ### awaitBody -/

@[simp] theorem State.awaitBody_seed (l : BitVec 16) : (s.awaitBody l).seed = s.seed := rfl
@[simp] theorem State.awaitBody_ksvalid (l : BitVec 16) : (s.awaitBody l).ksvalid = s.ksvalid := rfl
@[simp] theorem State.awaitBody_blen (l : BitVec 16) : (s.awaitBody l).blen = s.blen := rfl
@[simp] theorem State.awaitBody_cmd (l : BitVec 16) : (s.awaitBody l).cmd = s.cmd := rfl
@[simp] theorem State.awaitBody_tsalt (l : BitVec 16) : (s.awaitBody l).tsalt = s.tsalt := rfl
@[simp] theorem State.awaitBody_rsalt (l : BitVec 16) : (s.awaitBody l).rsalt = s.rsalt := rfl
@[simp] theorem State.awaitBody_kval (l : BitVec 16) : (s.awaitBody l).kval = s.kval := rfl
@[simp] theorem State.awaitBody_dlen (l : BitVec 16) : (s.awaitBody l).dlen = s.dlen := rfl
@[simp] theorem State.awaitBody_ck (l : BitVec 16) : (s.awaitBody l).ck = s.ck := rfl
@[simp] theorem State.awaitBody_fstate (l : BitVec 16) : (s.awaitBody l).fstate = .awaitBody := rfl
@[simp] theorem State.awaitBody_need (l : BitVec 16) : (s.awaitBody l).need = l := rfl
@[simp] theorem State.awaitBody_err (l : BitVec 16) : (s.awaitBody l).err = s.err := rfl
@[simp] theorem State.awaitBody_ctrl (l : BitVec 16) : (s.awaitBody l).ctrl = s.ctrl := rfl
@[simp] theorem State.awaitBody_rxlen (l : BitVec 16) : (s.awaitBody l).rxlen = s.rxlen := rfl
@[simp] theorem State.awaitBody_txlen (l : BitVec 16) : (s.awaitBody l).txlen = s.txlen := rfl
@[simp] theorem State.awaitBody_pt (l : BitVec 16) : (s.awaitBody l).pt = s.pt := rfl
@[simp] theorem State.awaitBody_itab (l : BitVec 16) : (s.awaitBody l).itab = s.itab := rfl
@[simp] theorem State.awaitBody_vsel (l : BitVec 16) : (s.awaitBody l).vsel = s.vsel := rfl
@[simp] theorem State.awaitBody_rxbuf (l : BitVec 16) : (s.awaitBody l).rxbuf = s.rxbuf := rfl
@[simp] theorem State.awaitBody_txbuf (l : BitVec 16) : (s.awaitBody l).txbuf = s.txbuf := rfl
@[simp] theorem State.awaitBody_pending (l : BitVec 16) : (s.awaitBody l).pending = s.pending := rfl
@[simp] theorem State.awaitBody_response (l : BitVec 16) : (s.awaitBody l).response = s.response := rfl
@[simp] theorem State.awaitBody_codecAlt (l : BitVec 16) : (s.awaitBody l).codecAlt = s.codecAlt := rfl
@[simp] theorem State.awaitBody_auto (l : BitVec 16) : (s.awaitBody l).auto = s.auto := rfl
@[simp] theorem State.awaitBody_txdir (l : BitVec 16) : (s.awaitBody l).txdir = s.txdir := rfl
@[simp] theorem State.awaitBody_rxdir (l : BitVec 16) : (s.awaitBody l).rxdir = s.rxdir := rfl

/-! ### becomeReady -/

@[simp] theorem State.becomeReady_seed : (s.becomeReady).seed = s.seed := rfl
@[simp] theorem State.becomeReady_ksvalid : (s.becomeReady).ksvalid = s.ksvalid := rfl
@[simp] theorem State.becomeReady_blen : (s.becomeReady).blen = s.blen := rfl
@[simp] theorem State.becomeReady_cmd : (s.becomeReady).cmd = s.cmd := rfl
@[simp] theorem State.becomeReady_tsalt : (s.becomeReady).tsalt = s.tsalt := rfl
@[simp] theorem State.becomeReady_rsalt : (s.becomeReady).rsalt = s.rsalt := rfl
@[simp] theorem State.becomeReady_kval : (s.becomeReady).kval = s.kval := rfl
@[simp] theorem State.becomeReady_dlen : (s.becomeReady).dlen = s.dlen := rfl
@[simp] theorem State.becomeReady_ck : (s.becomeReady).ck = s.ck := rfl
@[simp] theorem State.becomeReady_fstate : (s.becomeReady).fstate = .ready := rfl
@[simp] theorem State.becomeReady_need : (s.becomeReady).need = s.need := rfl
@[simp] theorem State.becomeReady_err : (s.becomeReady).err = s.err := rfl
@[simp] theorem State.becomeReady_ctrl : (s.becomeReady).ctrl = s.ctrl := rfl
@[simp] theorem State.becomeReady_rxlen : (s.becomeReady).rxlen = s.rxlen := rfl
@[simp] theorem State.becomeReady_txlen : (s.becomeReady).txlen = s.txlen := rfl
@[simp] theorem State.becomeReady_pt : (s.becomeReady).pt = s.pt := rfl
@[simp] theorem State.becomeReady_itab : (s.becomeReady).itab = s.itab := rfl
@[simp] theorem State.becomeReady_vsel : (s.becomeReady).vsel = s.vsel := rfl
@[simp] theorem State.becomeReady_rxbuf : (s.becomeReady).rxbuf = s.rxbuf := rfl
@[simp] theorem State.becomeReady_txbuf : (s.becomeReady).txbuf = s.txbuf := rfl
@[simp] theorem State.becomeReady_pending : (s.becomeReady).pending = s.pending := rfl
@[simp] theorem State.becomeReady_response : (s.becomeReady).response = s.response := rfl
@[simp] theorem State.becomeReady_codecAlt : (s.becomeReady).codecAlt = s.codecAlt := rfl
@[simp] theorem State.becomeReady_auto : (s.becomeReady).auto = s.auto := rfl
@[simp] theorem State.becomeReady_txdir : (s.becomeReady).txdir = s.txdir := rfl
@[simp] theorem State.becomeReady_rxdir : (s.becomeReady).rxdir = s.rxdir := rfl

/-! ### loadHeader -/

@[simp] theorem State.loadHeader_seed (bl c : BitVec 16) (t : BitVec 11) (r : BitVec 4) (k : BitVec 3) (dl : BitVec 16) (x : BitVec 8) : (s.loadHeader bl c t r k dl x).seed = s.seed := rfl
@[simp] theorem State.loadHeader_ksvalid (bl c : BitVec 16) (t : BitVec 11) (r : BitVec 4) (k : BitVec 3) (dl : BitVec 16) (x : BitVec 8) : (s.loadHeader bl c t r k dl x).ksvalid = s.ksvalid := rfl
@[simp] theorem State.loadHeader_blen (bl c : BitVec 16) (t : BitVec 11) (r : BitVec 4) (k : BitVec 3) (dl : BitVec 16) (x : BitVec 8) : (s.loadHeader bl c t r k dl x).blen = bl := rfl
@[simp] theorem State.loadHeader_cmd (bl c : BitVec 16) (t : BitVec 11) (r : BitVec 4) (k : BitVec 3) (dl : BitVec 16) (x : BitVec 8) : (s.loadHeader bl c t r k dl x).cmd = c := rfl
@[simp] theorem State.loadHeader_tsalt (bl c : BitVec 16) (t : BitVec 11) (r : BitVec 4) (k : BitVec 3) (dl : BitVec 16) (x : BitVec 8) : (s.loadHeader bl c t r k dl x).tsalt = t := rfl
@[simp] theorem State.loadHeader_rsalt (bl c : BitVec 16) (t : BitVec 11) (r : BitVec 4) (k : BitVec 3) (dl : BitVec 16) (x : BitVec 8) : (s.loadHeader bl c t r k dl x).rsalt = r := rfl
@[simp] theorem State.loadHeader_kval (bl c : BitVec 16) (t : BitVec 11) (r : BitVec 4) (k : BitVec 3) (dl : BitVec 16) (x : BitVec 8) : (s.loadHeader bl c t r k dl x).kval = k := rfl
@[simp] theorem State.loadHeader_dlen (bl c : BitVec 16) (t : BitVec 11) (r : BitVec 4) (k : BitVec 3) (dl : BitVec 16) (x : BitVec 8) : (s.loadHeader bl c t r k dl x).dlen = dl := rfl
@[simp] theorem State.loadHeader_ck (bl c : BitVec 16) (t : BitVec 11) (r : BitVec 4) (k : BitVec 3) (dl : BitVec 16) (x : BitVec 8) : (s.loadHeader bl c t r k dl x).ck = x := rfl
@[simp] theorem State.loadHeader_fstate (bl c : BitVec 16) (t : BitVec 11) (r : BitVec 4) (k : BitVec 3) (dl : BitVec 16) (x : BitVec 8) : (s.loadHeader bl c t r k dl x).fstate = s.fstate := rfl
@[simp] theorem State.loadHeader_need (bl c : BitVec 16) (t : BitVec 11) (r : BitVec 4) (k : BitVec 3) (dl : BitVec 16) (x : BitVec 8) : (s.loadHeader bl c t r k dl x).need = s.need := rfl
@[simp] theorem State.loadHeader_err (bl c : BitVec 16) (t : BitVec 11) (r : BitVec 4) (k : BitVec 3) (dl : BitVec 16) (x : BitVec 8) : (s.loadHeader bl c t r k dl x).err = s.err := rfl
@[simp] theorem State.loadHeader_ctrl (bl c : BitVec 16) (t : BitVec 11) (r : BitVec 4) (k : BitVec 3) (dl : BitVec 16) (x : BitVec 8) : (s.loadHeader bl c t r k dl x).ctrl = s.ctrl := rfl
@[simp] theorem State.loadHeader_rxlen (bl c : BitVec 16) (t : BitVec 11) (r : BitVec 4) (k : BitVec 3) (dl : BitVec 16) (x : BitVec 8) : (s.loadHeader bl c t r k dl x).rxlen = s.rxlen := rfl
@[simp] theorem State.loadHeader_txlen (bl c : BitVec 16) (t : BitVec 11) (r : BitVec 4) (k : BitVec 3) (dl : BitVec 16) (x : BitVec 8) : (s.loadHeader bl c t r k dl x).txlen = s.txlen := rfl
@[simp] theorem State.loadHeader_pt (bl c : BitVec 16) (t : BitVec 11) (r : BitVec 4) (k : BitVec 3) (dl : BitVec 16) (x : BitVec 8) : (s.loadHeader bl c t r k dl x).pt = s.pt := rfl
@[simp] theorem State.loadHeader_itab (bl c : BitVec 16) (t : BitVec 11) (r : BitVec 4) (k : BitVec 3) (dl : BitVec 16) (x : BitVec 8) : (s.loadHeader bl c t r k dl x).itab = s.itab := rfl
@[simp] theorem State.loadHeader_vsel (bl c : BitVec 16) (t : BitVec 11) (r : BitVec 4) (k : BitVec 3) (dl : BitVec 16) (x : BitVec 8) : (s.loadHeader bl c t r k dl x).vsel = s.vsel := rfl
@[simp] theorem State.loadHeader_rxbuf (bl c : BitVec 16) (t : BitVec 11) (r : BitVec 4) (k : BitVec 3) (dl : BitVec 16) (x : BitVec 8) : (s.loadHeader bl c t r k dl x).rxbuf = s.rxbuf := rfl
@[simp] theorem State.loadHeader_txbuf (bl c : BitVec 16) (t : BitVec 11) (r : BitVec 4) (k : BitVec 3) (dl : BitVec 16) (x : BitVec 8) : (s.loadHeader bl c t r k dl x).txbuf = s.txbuf := rfl
@[simp] theorem State.loadHeader_pending (bl c : BitVec 16) (t : BitVec 11) (r : BitVec 4) (k : BitVec 3) (dl : BitVec 16) (x : BitVec 8) : (s.loadHeader bl c t r k dl x).pending = s.pending := rfl
@[simp] theorem State.loadHeader_response (bl c : BitVec 16) (t : BitVec 11) (r : BitVec 4) (k : BitVec 3) (dl : BitVec 16) (x : BitVec 8) : (s.loadHeader bl c t r k dl x).response = s.response := rfl
@[simp] theorem State.loadHeader_codecAlt (bl c : BitVec 16) (t : BitVec 11) (r : BitVec 4) (k : BitVec 3) (dl : BitVec 16) (x : BitVec 8) : (s.loadHeader bl c t r k dl x).codecAlt = s.codecAlt := rfl
@[simp] theorem State.loadHeader_auto (bl c : BitVec 16) (t : BitVec 11) (r : BitVec 4) (k : BitVec 3) (dl : BitVec 16) (x : BitVec 8) : (s.loadHeader bl c t r k dl x).auto = s.auto := rfl
@[simp] theorem State.loadHeader_txdir (bl c : BitVec 16) (t : BitVec 11) (r : BitVec 4) (k : BitVec 3) (dl : BitVec 16) (x : BitVec 8) : (s.loadHeader bl c t r k dl x).txdir = s.txdir := rfl
@[simp] theorem State.loadHeader_rxdir (bl c : BitVec 16) (t : BitVec 11) (r : BitVec 4) (k : BitVec 3) (dl : BitVec 16) (x : BitVec 8) : (s.loadHeader bl c t r k dl x).rxdir = s.rxdir := rfl

/-! ### setRxbuf -/

@[simp] theorem State.setRxbuf_seed (m : Memory 8) : (s.setRxbuf m).seed = s.seed := rfl
@[simp] theorem State.setRxbuf_ksvalid (m : Memory 8) : (s.setRxbuf m).ksvalid = s.ksvalid := rfl
@[simp] theorem State.setRxbuf_blen (m : Memory 8) : (s.setRxbuf m).blen = s.blen := rfl
@[simp] theorem State.setRxbuf_cmd (m : Memory 8) : (s.setRxbuf m).cmd = s.cmd := rfl
@[simp] theorem State.setRxbuf_tsalt (m : Memory 8) : (s.setRxbuf m).tsalt = s.tsalt := rfl
@[simp] theorem State.setRxbuf_rsalt (m : Memory 8) : (s.setRxbuf m).rsalt = s.rsalt := rfl
@[simp] theorem State.setRxbuf_kval (m : Memory 8) : (s.setRxbuf m).kval = s.kval := rfl
@[simp] theorem State.setRxbuf_dlen (m : Memory 8) : (s.setRxbuf m).dlen = s.dlen := rfl
@[simp] theorem State.setRxbuf_ck (m : Memory 8) : (s.setRxbuf m).ck = s.ck := rfl
@[simp] theorem State.setRxbuf_fstate (m : Memory 8) : (s.setRxbuf m).fstate = s.fstate := rfl
@[simp] theorem State.setRxbuf_need (m : Memory 8) : (s.setRxbuf m).need = s.need := rfl
@[simp] theorem State.setRxbuf_err (m : Memory 8) : (s.setRxbuf m).err = s.err := rfl
@[simp] theorem State.setRxbuf_ctrl (m : Memory 8) : (s.setRxbuf m).ctrl = s.ctrl := rfl
@[simp] theorem State.setRxbuf_rxlen (m : Memory 8) : (s.setRxbuf m).rxlen = s.rxlen := rfl
@[simp] theorem State.setRxbuf_txlen (m : Memory 8) : (s.setRxbuf m).txlen = s.txlen := rfl
@[simp] theorem State.setRxbuf_pt (m : Memory 8) : (s.setRxbuf m).pt = s.pt := rfl
@[simp] theorem State.setRxbuf_itab (m : Memory 8) : (s.setRxbuf m).itab = s.itab := rfl
@[simp] theorem State.setRxbuf_vsel (m : Memory 8) : (s.setRxbuf m).vsel = s.vsel := rfl
@[simp] theorem State.setRxbuf_rxbuf (m : Memory 8) : (s.setRxbuf m).rxbuf = m := rfl
@[simp] theorem State.setRxbuf_txbuf (m : Memory 8) : (s.setRxbuf m).txbuf = s.txbuf := rfl
@[simp] theorem State.setRxbuf_pending (m : Memory 8) : (s.setRxbuf m).pending = s.pending := rfl
@[simp] theorem State.setRxbuf_response (m : Memory 8) : (s.setRxbuf m).response = s.response := rfl
@[simp] theorem State.setRxbuf_codecAlt (m : Memory 8) : (s.setRxbuf m).codecAlt = s.codecAlt := rfl
@[simp] theorem State.setRxbuf_auto (m : Memory 8) : (s.setRxbuf m).auto = s.auto := rfl
@[simp] theorem State.setRxbuf_txdir (m : Memory 8) : (s.setRxbuf m).txdir = s.txdir := rfl
@[simp] theorem State.setRxbuf_rxdir (m : Memory 8) : (s.setRxbuf m).rxdir = s.rxdir := rfl

/-! ### setCk -/

@[simp] theorem State.setCk_seed (v : BitVec 8) : (s.setCk v).seed = s.seed := rfl
@[simp] theorem State.setCk_ksvalid (v : BitVec 8) : (s.setCk v).ksvalid = s.ksvalid := rfl
@[simp] theorem State.setCk_blen (v : BitVec 8) : (s.setCk v).blen = s.blen := rfl
@[simp] theorem State.setCk_cmd (v : BitVec 8) : (s.setCk v).cmd = s.cmd := rfl
@[simp] theorem State.setCk_tsalt (v : BitVec 8) : (s.setCk v).tsalt = s.tsalt := rfl
@[simp] theorem State.setCk_rsalt (v : BitVec 8) : (s.setCk v).rsalt = s.rsalt := rfl
@[simp] theorem State.setCk_kval (v : BitVec 8) : (s.setCk v).kval = s.kval := rfl
@[simp] theorem State.setCk_dlen (v : BitVec 8) : (s.setCk v).dlen = s.dlen := rfl
@[simp] theorem State.setCk_ck (v : BitVec 8) : (s.setCk v).ck = v := rfl
@[simp] theorem State.setCk_fstate (v : BitVec 8) : (s.setCk v).fstate = s.fstate := rfl
@[simp] theorem State.setCk_need (v : BitVec 8) : (s.setCk v).need = s.need := rfl
@[simp] theorem State.setCk_err (v : BitVec 8) : (s.setCk v).err = s.err := rfl
@[simp] theorem State.setCk_ctrl (v : BitVec 8) : (s.setCk v).ctrl = s.ctrl := rfl
@[simp] theorem State.setCk_rxlen (v : BitVec 8) : (s.setCk v).rxlen = s.rxlen := rfl
@[simp] theorem State.setCk_txlen (v : BitVec 8) : (s.setCk v).txlen = s.txlen := rfl
@[simp] theorem State.setCk_pt (v : BitVec 8) : (s.setCk v).pt = s.pt := rfl
@[simp] theorem State.setCk_itab (v : BitVec 8) : (s.setCk v).itab = s.itab := rfl
@[simp] theorem State.setCk_vsel (v : BitVec 8) : (s.setCk v).vsel = s.vsel := rfl
@[simp] theorem State.setCk_rxbuf (v : BitVec 8) : (s.setCk v).rxbuf = s.rxbuf := rfl
@[simp] theorem State.setCk_txbuf (v : BitVec 8) : (s.setCk v).txbuf = s.txbuf := rfl
@[simp] theorem State.setCk_pending (v : BitVec 8) : (s.setCk v).pending = s.pending := rfl
@[simp] theorem State.setCk_response (v : BitVec 8) : (s.setCk v).response = s.response := rfl
@[simp] theorem State.setCk_codecAlt (v : BitVec 8) : (s.setCk v).codecAlt = s.codecAlt := rfl
@[simp] theorem State.setCk_auto (v : BitVec 8) : (s.setCk v).auto = s.auto := rfl
@[simp] theorem State.setCk_txdir (v : BitVec 8) : (s.setCk v).txdir = s.txdir := rfl
@[simp] theorem State.setCk_rxdir (v : BitVec 8) : (s.setCk v).rxdir = s.rxdir := rfl

/-! ### setTxbuf -/

@[simp] theorem State.setTxbuf_seed (m : Memory 8) : (s.setTxbuf m).seed = s.seed := rfl
@[simp] theorem State.setTxbuf_ksvalid (m : Memory 8) : (s.setTxbuf m).ksvalid = s.ksvalid := rfl
@[simp] theorem State.setTxbuf_blen (m : Memory 8) : (s.setTxbuf m).blen = s.blen := rfl
@[simp] theorem State.setTxbuf_cmd (m : Memory 8) : (s.setTxbuf m).cmd = s.cmd := rfl
@[simp] theorem State.setTxbuf_tsalt (m : Memory 8) : (s.setTxbuf m).tsalt = s.tsalt := rfl
@[simp] theorem State.setTxbuf_rsalt (m : Memory 8) : (s.setTxbuf m).rsalt = s.rsalt := rfl
@[simp] theorem State.setTxbuf_kval (m : Memory 8) : (s.setTxbuf m).kval = s.kval := rfl
@[simp] theorem State.setTxbuf_dlen (m : Memory 8) : (s.setTxbuf m).dlen = s.dlen := rfl
@[simp] theorem State.setTxbuf_ck (m : Memory 8) : (s.setTxbuf m).ck = s.ck := rfl
@[simp] theorem State.setTxbuf_fstate (m : Memory 8) : (s.setTxbuf m).fstate = s.fstate := rfl
@[simp] theorem State.setTxbuf_need (m : Memory 8) : (s.setTxbuf m).need = s.need := rfl
@[simp] theorem State.setTxbuf_err (m : Memory 8) : (s.setTxbuf m).err = s.err := rfl
@[simp] theorem State.setTxbuf_ctrl (m : Memory 8) : (s.setTxbuf m).ctrl = s.ctrl := rfl
@[simp] theorem State.setTxbuf_rxlen (m : Memory 8) : (s.setTxbuf m).rxlen = s.rxlen := rfl
@[simp] theorem State.setTxbuf_txlen (m : Memory 8) : (s.setTxbuf m).txlen = s.txlen := rfl
@[simp] theorem State.setTxbuf_pt (m : Memory 8) : (s.setTxbuf m).pt = s.pt := rfl
@[simp] theorem State.setTxbuf_itab (m : Memory 8) : (s.setTxbuf m).itab = s.itab := rfl
@[simp] theorem State.setTxbuf_vsel (m : Memory 8) : (s.setTxbuf m).vsel = s.vsel := rfl
@[simp] theorem State.setTxbuf_rxbuf (m : Memory 8) : (s.setTxbuf m).rxbuf = s.rxbuf := rfl
@[simp] theorem State.setTxbuf_txbuf (m : Memory 8) : (s.setTxbuf m).txbuf = m := rfl
@[simp] theorem State.setTxbuf_pending (m : Memory 8) : (s.setTxbuf m).pending = s.pending := rfl
@[simp] theorem State.setTxbuf_response (m : Memory 8) : (s.setTxbuf m).response = s.response := rfl
@[simp] theorem State.setTxbuf_codecAlt (m : Memory 8) : (s.setTxbuf m).codecAlt = s.codecAlt := rfl
@[simp] theorem State.setTxbuf_auto (m : Memory 8) : (s.setTxbuf m).auto = s.auto := rfl
@[simp] theorem State.setTxbuf_txdir (m : Memory 8) : (s.setTxbuf m).txdir = s.txdir := rfl
@[simp] theorem State.setTxbuf_rxdir (m : Memory 8) : (s.setTxbuf m).rxdir = s.rxdir := rfl

/-! ### setTxlen -/

@[simp] theorem State.setTxlen_seed (n : BitVec 11) : (s.setTxlen n).seed = s.seed := rfl
@[simp] theorem State.setTxlen_ksvalid (n : BitVec 11) : (s.setTxlen n).ksvalid = s.ksvalid := rfl
@[simp] theorem State.setTxlen_blen (n : BitVec 11) : (s.setTxlen n).blen = s.blen := rfl
@[simp] theorem State.setTxlen_cmd (n : BitVec 11) : (s.setTxlen n).cmd = s.cmd := rfl
@[simp] theorem State.setTxlen_tsalt (n : BitVec 11) : (s.setTxlen n).tsalt = s.tsalt := rfl
@[simp] theorem State.setTxlen_rsalt (n : BitVec 11) : (s.setTxlen n).rsalt = s.rsalt := rfl
@[simp] theorem State.setTxlen_kval (n : BitVec 11) : (s.setTxlen n).kval = s.kval := rfl
@[simp] theorem State.setTxlen_dlen (n : BitVec 11) : (s.setTxlen n).dlen = s.dlen := rfl
@[simp] theorem State.setTxlen_ck (n : BitVec 11) : (s.setTxlen n).ck = s.ck := rfl
@[simp] theorem State.setTxlen_fstate (n : BitVec 11) : (s.setTxlen n).fstate = s.fstate := rfl
@[simp] theorem State.setTxlen_need (n : BitVec 11) : (s.setTxlen n).need = s.need := rfl
@[simp] theorem State.setTxlen_err (n : BitVec 11) : (s.setTxlen n).err = s.err := rfl
@[simp] theorem State.setTxlen_ctrl (n : BitVec 11) : (s.setTxlen n).ctrl = s.ctrl := rfl
@[simp] theorem State.setTxlen_rxlen (n : BitVec 11) : (s.setTxlen n).rxlen = s.rxlen := rfl
@[simp] theorem State.setTxlen_txlen (n : BitVec 11) : (s.setTxlen n).txlen = n := rfl
@[simp] theorem State.setTxlen_pt (n : BitVec 11) : (s.setTxlen n).pt = s.pt := rfl
@[simp] theorem State.setTxlen_itab (n : BitVec 11) : (s.setTxlen n).itab = s.itab := rfl
@[simp] theorem State.setTxlen_vsel (n : BitVec 11) : (s.setTxlen n).vsel = s.vsel := rfl
@[simp] theorem State.setTxlen_rxbuf (n : BitVec 11) : (s.setTxlen n).rxbuf = s.rxbuf := rfl
@[simp] theorem State.setTxlen_txbuf (n : BitVec 11) : (s.setTxlen n).txbuf = s.txbuf := rfl
@[simp] theorem State.setTxlen_pending (n : BitVec 11) : (s.setTxlen n).pending = s.pending := rfl
@[simp] theorem State.setTxlen_response (n : BitVec 11) : (s.setTxlen n).response = s.response := rfl
@[simp] theorem State.setTxlen_codecAlt (n : BitVec 11) : (s.setTxlen n).codecAlt = s.codecAlt := rfl
@[simp] theorem State.setTxlen_auto (n : BitVec 11) : (s.setTxlen n).auto = s.auto := rfl
@[simp] theorem State.setTxlen_txdir (n : BitVec 11) : (s.setTxlen n).txdir = s.txdir := rfl
@[simp] theorem State.setTxlen_rxdir (n : BitVec 11) : (s.setTxlen n).rxdir = s.rxdir := rfl

/-! ### enterFailed -/

@[simp] theorem State.enterFailed_seed (e : BitVec 3) : (s.enterFailed e).seed = s.seed := rfl
@[simp] theorem State.enterFailed_ksvalid (e : BitVec 3) : (s.enterFailed e).ksvalid = s.ksvalid := rfl
@[simp] theorem State.enterFailed_blen (e : BitVec 3) : (s.enterFailed e).blen = s.blen := rfl
@[simp] theorem State.enterFailed_cmd (e : BitVec 3) : (s.enterFailed e).cmd = s.cmd := rfl
@[simp] theorem State.enterFailed_tsalt (e : BitVec 3) : (s.enterFailed e).tsalt = s.tsalt := rfl
@[simp] theorem State.enterFailed_rsalt (e : BitVec 3) : (s.enterFailed e).rsalt = s.rsalt := rfl
@[simp] theorem State.enterFailed_kval (e : BitVec 3) : (s.enterFailed e).kval = s.kval := rfl
@[simp] theorem State.enterFailed_dlen (e : BitVec 3) : (s.enterFailed e).dlen = s.dlen := rfl
@[simp] theorem State.enterFailed_ck (e : BitVec 3) : (s.enterFailed e).ck = s.ck := rfl
@[simp] theorem State.enterFailed_fstate (e : BitVec 3) : (s.enterFailed e).fstate = .failed := rfl
@[simp] theorem State.enterFailed_need (e : BitVec 3) : (s.enterFailed e).need = s.need := rfl
@[simp] theorem State.enterFailed_err (e : BitVec 3) : (s.enterFailed e).err = if s.err = 0 then e else s.err := rfl
@[simp] theorem State.enterFailed_ctrl (e : BitVec 3) : (s.enterFailed e).ctrl = s.ctrl := rfl
@[simp] theorem State.enterFailed_rxlen (e : BitVec 3) : (s.enterFailed e).rxlen = s.rxlen := rfl
@[simp] theorem State.enterFailed_txlen (e : BitVec 3) : (s.enterFailed e).txlen = s.txlen := rfl
@[simp] theorem State.enterFailed_pt (e : BitVec 3) : (s.enterFailed e).pt = s.pt := rfl
@[simp] theorem State.enterFailed_itab (e : BitVec 3) : (s.enterFailed e).itab = s.itab := rfl
@[simp] theorem State.enterFailed_vsel (e : BitVec 3) : (s.enterFailed e).vsel = s.vsel := rfl
@[simp] theorem State.enterFailed_rxbuf (e : BitVec 3) : (s.enterFailed e).rxbuf = s.rxbuf := rfl
@[simp] theorem State.enterFailed_txbuf (e : BitVec 3) : (s.enterFailed e).txbuf = s.txbuf := rfl
@[simp] theorem State.enterFailed_pending (e : BitVec 3) : (s.enterFailed e).pending = s.pending := rfl
@[simp] theorem State.enterFailed_response (e : BitVec 3) : (s.enterFailed e).response = s.response := rfl
@[simp] theorem State.enterFailed_codecAlt (e : BitVec 3) : (s.enterFailed e).codecAlt = s.codecAlt := rfl
@[simp] theorem State.enterFailed_auto (e : BitVec 3) : (s.enterFailed e).auto = s.auto := rfl
@[simp] theorem State.enterFailed_txdir (e : BitVec 3) : (s.enterFailed e).txdir = s.txdir := rfl
@[simp] theorem State.enterFailed_rxdir (e : BitVec 3) : (s.enterFailed e).rxdir = s.rxdir := rfl

/-! ### resetBlock -/

@[simp] theorem State.resetBlock_seed : (s.resetBlock).seed = State.reset.seed := rfl
@[simp] theorem State.resetBlock_ksvalid : (s.resetBlock).ksvalid = State.reset.ksvalid := rfl
@[simp] theorem State.resetBlock_blen : (s.resetBlock).blen = State.reset.blen := rfl
@[simp] theorem State.resetBlock_cmd : (s.resetBlock).cmd = State.reset.cmd := rfl
@[simp] theorem State.resetBlock_tsalt : (s.resetBlock).tsalt = State.reset.tsalt := rfl
@[simp] theorem State.resetBlock_rsalt : (s.resetBlock).rsalt = State.reset.rsalt := rfl
@[simp] theorem State.resetBlock_kval : (s.resetBlock).kval = State.reset.kval := rfl
@[simp] theorem State.resetBlock_dlen : (s.resetBlock).dlen = State.reset.dlen := rfl
@[simp] theorem State.resetBlock_ck : (s.resetBlock).ck = State.reset.ck := rfl
@[simp] theorem State.resetBlock_fstate : (s.resetBlock).fstate = State.reset.fstate := rfl
@[simp] theorem State.resetBlock_need : (s.resetBlock).need = State.reset.need := rfl
@[simp] theorem State.resetBlock_err : (s.resetBlock).err = State.reset.err := rfl
@[simp] theorem State.resetBlock_ctrl : (s.resetBlock).ctrl = State.reset.ctrl := rfl
@[simp] theorem State.resetBlock_rxlen : (s.resetBlock).rxlen = State.reset.rxlen := rfl
@[simp] theorem State.resetBlock_txlen : (s.resetBlock).txlen = State.reset.txlen := rfl
@[simp] theorem State.resetBlock_pt : (s.resetBlock).pt = State.reset.pt := rfl
@[simp] theorem State.resetBlock_itab : (s.resetBlock).itab = State.reset.itab := rfl
@[simp] theorem State.resetBlock_vsel : (s.resetBlock).vsel = State.reset.vsel := rfl
@[simp] theorem State.resetBlock_rxbuf : (s.resetBlock).rxbuf = State.reset.rxbuf := rfl
@[simp] theorem State.resetBlock_txbuf : (s.resetBlock).txbuf = State.reset.txbuf := rfl
@[simp] theorem State.resetBlock_pending : (s.resetBlock).pending = s.pending := rfl
@[simp] theorem State.resetBlock_response : (s.resetBlock).response = s.response := rfl

/-! ### loadKeys -/

@[simp] theorem State.loadKeys_seed (seed : Word) (k : KeyTables) : (s.loadKeys seed k).seed = seed := rfl
@[simp] theorem State.loadKeys_ksvalid (seed : Word) (k : KeyTables) : (s.loadKeys seed k).ksvalid = true := rfl
@[simp] theorem State.loadKeys_blen (seed : Word) (k : KeyTables) : (s.loadKeys seed k).blen = s.blen := rfl
@[simp] theorem State.loadKeys_cmd (seed : Word) (k : KeyTables) : (s.loadKeys seed k).cmd = s.cmd := rfl
@[simp] theorem State.loadKeys_tsalt (seed : Word) (k : KeyTables) : (s.loadKeys seed k).tsalt = s.tsalt := rfl
@[simp] theorem State.loadKeys_rsalt (seed : Word) (k : KeyTables) : (s.loadKeys seed k).rsalt = s.rsalt := rfl
@[simp] theorem State.loadKeys_kval (seed : Word) (k : KeyTables) : (s.loadKeys seed k).kval = s.kval := rfl
@[simp] theorem State.loadKeys_dlen (seed : Word) (k : KeyTables) : (s.loadKeys seed k).dlen = s.dlen := rfl
@[simp] theorem State.loadKeys_ck (seed : Word) (k : KeyTables) : (s.loadKeys seed k).ck = s.ck := rfl
@[simp] theorem State.loadKeys_fstate (seed : Word) (k : KeyTables) : (s.loadKeys seed k).fstate = s.fstate := rfl
@[simp] theorem State.loadKeys_need (seed : Word) (k : KeyTables) : (s.loadKeys seed k).need = s.need := rfl
@[simp] theorem State.loadKeys_err (seed : Word) (k : KeyTables) : (s.loadKeys seed k).err = s.err := rfl
@[simp] theorem State.loadKeys_ctrl (seed : Word) (k : KeyTables) : (s.loadKeys seed k).ctrl = s.ctrl := rfl
@[simp] theorem State.loadKeys_rxlen (seed : Word) (k : KeyTables) : (s.loadKeys seed k).rxlen = s.rxlen := rfl
@[simp] theorem State.loadKeys_txlen (seed : Word) (k : KeyTables) : (s.loadKeys seed k).txlen = s.txlen := rfl
@[simp] theorem State.loadKeys_pt (seed : Word) (k : KeyTables) : (s.loadKeys seed k).pt = k.pt := rfl
@[simp] theorem State.loadKeys_itab (seed : Word) (k : KeyTables) : (s.loadKeys seed k).itab = k.itab := rfl
@[simp] theorem State.loadKeys_vsel (seed : Word) (k : KeyTables) : (s.loadKeys seed k).vsel = k.vsel := rfl
@[simp] theorem State.loadKeys_rxbuf (seed : Word) (k : KeyTables) : (s.loadKeys seed k).rxbuf = s.rxbuf := rfl
@[simp] theorem State.loadKeys_txbuf (seed : Word) (k : KeyTables) : (s.loadKeys seed k).txbuf = s.txbuf := rfl
@[simp] theorem State.loadKeys_pending (seed : Word) (k : KeyTables) : (s.loadKeys seed k).pending = s.pending := rfl
@[simp] theorem State.loadKeys_response (seed : Word) (k : KeyTables) : (s.loadKeys seed k).response = s.response := rfl
@[simp] theorem State.loadKeys_codecAlt (seed : Word) (k : KeyTables) : (s.loadKeys seed k).codecAlt = s.codecAlt := rfl
@[simp] theorem State.loadKeys_auto (seed : Word) (k : KeyTables) : (s.loadKeys seed k).auto = s.auto := rfl
@[simp] theorem State.loadKeys_txdir (seed : Word) (k : KeyTables) : (s.loadKeys seed k).txdir = s.txdir := rfl
@[simp] theorem State.loadKeys_rxdir (seed : Word) (k : KeyTables) : (s.loadKeys seed k).rxdir = s.rxdir := rfl

/-! ### The state after reset -/

@[simp] theorem State.reset_seed : State.reset.seed = 0 := rfl
@[simp] theorem State.reset_ksvalid : State.reset.ksvalid = false := rfl
@[simp] theorem State.reset_blen : State.reset.blen = 0 := rfl
@[simp] theorem State.reset_cmd : State.reset.cmd = 0 := rfl
@[simp] theorem State.reset_tsalt : State.reset.tsalt = 0 := rfl
@[simp] theorem State.reset_rsalt : State.reset.rsalt = 0 := rfl
@[simp] theorem State.reset_kval : State.reset.kval = 0 := rfl
@[simp] theorem State.reset_dlen : State.reset.dlen = 0 := rfl
@[simp] theorem State.reset_ck : State.reset.ck = 0 := rfl
@[simp] theorem State.reset_fstate : State.reset.fstate = .awaitHeader := rfl
@[simp] theorem State.reset_need : State.reset.need = 6 := rfl
@[simp] theorem State.reset_err : State.reset.err = 0 := rfl
@[simp] theorem State.reset_ctrl : State.reset.ctrl = 0xA := rfl
@[simp] theorem State.reset_rxlen : State.reset.rxlen = 0 := rfl
@[simp] theorem State.reset_txlen : State.reset.txlen = 0 := rfl
@[simp] theorem State.reset_pt : State.reset.pt = [] := rfl
@[simp] theorem State.reset_itab : State.reset.itab = [] := rfl
@[simp] theorem State.reset_vsel : State.reset.vsel = [] := rfl
@[simp] theorem State.reset_rxbuf : State.reset.rxbuf = [] := rfl
@[simp] theorem State.reset_txbuf : State.reset.txbuf = [] := rfl
@[simp] theorem State.reset_pending : State.reset.pending = [] := rfl
@[simp] theorem State.reset_response : State.reset.response = none := rfl

end Sys2Proof.Machine
end

