-- ==== Sys2Proof/Laws/Procedures.lean ====
section
/-! SUPPORT. What the procedures of the codecs leave unchanged: one lemma per field a procedure does not write. -/

namespace Sys2Proof.Machine

variable (s : State)

/-! ### dechdr (R156) -/

@[simp] theorem dechdr_seed (p : Params) : (dechdr p s).seed = s.seed := by simp [dechdr]
@[simp] theorem dechdr_ksvalid (p : Params) : (dechdr p s).ksvalid = s.ksvalid := by simp [dechdr]
@[simp] theorem dechdr_fstate (p : Params) : (dechdr p s).fstate = s.fstate := by simp [dechdr]
@[simp] theorem dechdr_need (p : Params) : (dechdr p s).need = s.need := by simp [dechdr]
@[simp] theorem dechdr_err (p : Params) : (dechdr p s).err = s.err := by simp [dechdr]
@[simp] theorem dechdr_ctrl (p : Params) : (dechdr p s).ctrl = s.ctrl := by simp [dechdr]
@[simp] theorem dechdr_rxlen (p : Params) : (dechdr p s).rxlen = s.rxlen := by simp [dechdr]
@[simp] theorem dechdr_txlen (p : Params) : (dechdr p s).txlen = s.txlen := by simp [dechdr]
@[simp] theorem dechdr_pt (p : Params) : (dechdr p s).pt = s.pt := by simp [dechdr]
@[simp] theorem dechdr_itab (p : Params) : (dechdr p s).itab = s.itab := by simp [dechdr]
@[simp] theorem dechdr_vsel (p : Params) : (dechdr p s).vsel = s.vsel := by simp [dechdr]
@[simp] theorem dechdr_txbuf (p : Params) : (dechdr p s).txbuf = s.txbuf := by simp [dechdr]
@[simp] theorem dechdr_pending (p : Params) : (dechdr p s).pending = s.pending := by simp [dechdr]
@[simp] theorem dechdr_response (p : Params) : (dechdr p s).response = s.response := by simp [dechdr]
@[simp] theorem dechdr_codecAlt (p : Params) : (dechdr p s).codecAlt = s.codecAlt := by simp [dechdr]
@[simp] theorem dechdr_auto (p : Params) : (dechdr p s).auto = s.auto := by simp [dechdr]
@[simp] theorem dechdr_txdir (p : Params) : (dechdr p s).txdir = s.txdir := by simp [dechdr]
@[simp] theorem dechdr_rxdir (p : Params) : (dechdr p s).rxdir = s.rxdir := by simp [dechdr]

/-! ### decbody (R159) -/

@[simp] theorem decbody_seed (p : Params) : (decbody p s).1.seed = s.seed := by simp [decbody]
@[simp] theorem decbody_ksvalid (p : Params) : (decbody p s).1.ksvalid = s.ksvalid := by simp [decbody]
@[simp] theorem decbody_blen (p : Params) : (decbody p s).1.blen = s.blen := by simp [decbody]
@[simp] theorem decbody_cmd (p : Params) : (decbody p s).1.cmd = s.cmd := by simp [decbody]
@[simp] theorem decbody_tsalt (p : Params) : (decbody p s).1.tsalt = s.tsalt := by simp [decbody]
@[simp] theorem decbody_rsalt (p : Params) : (decbody p s).1.rsalt = s.rsalt := by simp [decbody]
@[simp] theorem decbody_kval (p : Params) : (decbody p s).1.kval = s.kval := by simp [decbody]
@[simp] theorem decbody_dlen (p : Params) : (decbody p s).1.dlen = s.dlen := by simp [decbody]
@[simp] theorem decbody_fstate (p : Params) : (decbody p s).1.fstate = s.fstate := by simp [decbody]
@[simp] theorem decbody_need (p : Params) : (decbody p s).1.need = s.need := by simp [decbody]
@[simp] theorem decbody_err (p : Params) : (decbody p s).1.err = s.err := by simp [decbody]
@[simp] theorem decbody_ctrl (p : Params) : (decbody p s).1.ctrl = s.ctrl := by simp [decbody]
@[simp] theorem decbody_rxlen (p : Params) : (decbody p s).1.rxlen = s.rxlen := by simp [decbody]
@[simp] theorem decbody_txlen (p : Params) : (decbody p s).1.txlen = s.txlen := by simp [decbody]
@[simp] theorem decbody_pt (p : Params) : (decbody p s).1.pt = s.pt := by simp [decbody]
@[simp] theorem decbody_itab (p : Params) : (decbody p s).1.itab = s.itab := by simp [decbody]
@[simp] theorem decbody_vsel (p : Params) : (decbody p s).1.vsel = s.vsel := by simp [decbody]
@[simp] theorem decbody_txbuf (p : Params) : (decbody p s).1.txbuf = s.txbuf := by simp [decbody]
@[simp] theorem decbody_pending (p : Params) : (decbody p s).1.pending = s.pending := by simp [decbody]
@[simp] theorem decbody_response (p : Params) : (decbody p s).1.response = s.response := by simp [decbody]
@[simp] theorem decbody_codecAlt (p : Params) : (decbody p s).1.codecAlt = s.codecAlt := by simp [decbody]
@[simp] theorem decbody_auto (p : Params) : (decbody p s).1.auto = s.auto := by simp [decbody]
@[simp] theorem decbody_txdir (p : Params) : (decbody p s).1.txdir = s.txdir := by simp [decbody]
@[simp] theorem decbody_rxdir (p : Params) : (decbody p s).1.rxdir = s.rxdir := by simp [decbody]

/-! ### adechdr (R191) -/

@[simp] theorem adechdr_seed (p : Params) : (adechdr p s).seed = s.seed := by simp [adechdr]
@[simp] theorem adechdr_ksvalid (p : Params) : (adechdr p s).ksvalid = s.ksvalid := by simp [adechdr]
@[simp] theorem adechdr_fstate (p : Params) : (adechdr p s).fstate = s.fstate := by simp [adechdr]
@[simp] theorem adechdr_need (p : Params) : (adechdr p s).need = s.need := by simp [adechdr]
@[simp] theorem adechdr_err (p : Params) : (adechdr p s).err = s.err := by simp [adechdr]
@[simp] theorem adechdr_ctrl (p : Params) : (adechdr p s).ctrl = s.ctrl := by simp [adechdr]
@[simp] theorem adechdr_rxlen (p : Params) : (adechdr p s).rxlen = s.rxlen := by simp [adechdr]
@[simp] theorem adechdr_txlen (p : Params) : (adechdr p s).txlen = s.txlen := by simp [adechdr]
@[simp] theorem adechdr_pt (p : Params) : (adechdr p s).pt = s.pt := by simp [adechdr]
@[simp] theorem adechdr_itab (p : Params) : (adechdr p s).itab = s.itab := by simp [adechdr]
@[simp] theorem adechdr_vsel (p : Params) : (adechdr p s).vsel = s.vsel := by simp [adechdr]
@[simp] theorem adechdr_txbuf (p : Params) : (adechdr p s).txbuf = s.txbuf := by simp [adechdr]
@[simp] theorem adechdr_pending (p : Params) : (adechdr p s).pending = s.pending := by simp [adechdr]
@[simp] theorem adechdr_response (p : Params) : (adechdr p s).response = s.response := by simp [adechdr]
@[simp] theorem adechdr_codecAlt (p : Params) : (adechdr p s).codecAlt = s.codecAlt := by simp [adechdr]
@[simp] theorem adechdr_auto (p : Params) : (adechdr p s).auto = s.auto := by simp [adechdr]
@[simp] theorem adechdr_txdir (p : Params) : (adechdr p s).txdir = s.txdir := by simp [adechdr]
@[simp] theorem adechdr_rxdir (p : Params) : (adechdr p s).rxdir = s.rxdir := by simp [adechdr]

/-! ### adecbody (R192) -/

@[simp] theorem adecbody_seed (p : Params) : (adecbody p s).seed = s.seed := by simp [adecbody]
@[simp] theorem adecbody_ksvalid (p : Params) : (adecbody p s).ksvalid = s.ksvalid := by simp [adecbody]
@[simp] theorem adecbody_blen (p : Params) : (adecbody p s).blen = s.blen := by simp [adecbody]
@[simp] theorem adecbody_cmd (p : Params) : (adecbody p s).cmd = s.cmd := by simp [adecbody]
@[simp] theorem adecbody_tsalt (p : Params) : (adecbody p s).tsalt = s.tsalt := by simp [adecbody]
@[simp] theorem adecbody_rsalt (p : Params) : (adecbody p s).rsalt = s.rsalt := by simp [adecbody]
@[simp] theorem adecbody_kval (p : Params) : (adecbody p s).kval = s.kval := by simp [adecbody]
@[simp] theorem adecbody_dlen (p : Params) : (adecbody p s).dlen = s.dlen := by simp [adecbody]
@[simp] theorem adecbody_ck (p : Params) : (adecbody p s).ck = s.ck := by simp [adecbody]
@[simp] theorem adecbody_fstate (p : Params) : (adecbody p s).fstate = s.fstate := by simp [adecbody]
@[simp] theorem adecbody_need (p : Params) : (adecbody p s).need = s.need := by simp [adecbody]
@[simp] theorem adecbody_err (p : Params) : (adecbody p s).err = s.err := by simp [adecbody]
@[simp] theorem adecbody_ctrl (p : Params) : (adecbody p s).ctrl = s.ctrl := by simp [adecbody]
@[simp] theorem adecbody_rxlen (p : Params) : (adecbody p s).rxlen = s.rxlen := by simp [adecbody]
@[simp] theorem adecbody_txlen (p : Params) : (adecbody p s).txlen = s.txlen := by simp [adecbody]
@[simp] theorem adecbody_pt (p : Params) : (adecbody p s).pt = s.pt := by simp [adecbody]
@[simp] theorem adecbody_itab (p : Params) : (adecbody p s).itab = s.itab := by simp [adecbody]
@[simp] theorem adecbody_vsel (p : Params) : (adecbody p s).vsel = s.vsel := by simp [adecbody]
@[simp] theorem adecbody_txbuf (p : Params) : (adecbody p s).txbuf = s.txbuf := by simp [adecbody]
@[simp] theorem adecbody_pending (p : Params) : (adecbody p s).pending = s.pending := by simp [adecbody]
@[simp] theorem adecbody_response (p : Params) : (adecbody p s).response = s.response := by simp [adecbody]
@[simp] theorem adecbody_codecAlt (p : Params) : (adecbody p s).codecAlt = s.codecAlt := by simp [adecbody]
@[simp] theorem adecbody_auto (p : Params) : (adecbody p s).auto = s.auto := by simp [adecbody]
@[simp] theorem adecbody_txdir (p : Params) : (adecbody p s).txdir = s.txdir := by simp [adecbody]
@[simp] theorem adecbody_rxdir (p : Params) : (adecbody p s).rxdir = s.rxdir := by simp [adecbody]

/-! ### encryptFrame (R161) -/

@[simp] theorem encryptFrame_seed (p : Params) (size c : BitVec 11) : (encryptFrame p size c s).seed = s.seed := by simp [encryptFrame]
@[simp] theorem encryptFrame_ksvalid (p : Params) (size c : BitVec 11) : (encryptFrame p size c s).ksvalid = s.ksvalid := by simp [encryptFrame]
@[simp] theorem encryptFrame_blen (p : Params) (size c : BitVec 11) : (encryptFrame p size c s).blen = s.blen := by simp [encryptFrame]
@[simp] theorem encryptFrame_cmd (p : Params) (size c : BitVec 11) : (encryptFrame p size c s).cmd = s.cmd := by simp [encryptFrame]
@[simp] theorem encryptFrame_tsalt (p : Params) (size c : BitVec 11) : (encryptFrame p size c s).tsalt = s.tsalt := by simp [encryptFrame]
@[simp] theorem encryptFrame_rsalt (p : Params) (size c : BitVec 11) : (encryptFrame p size c s).rsalt = s.rsalt := by simp [encryptFrame]
@[simp] theorem encryptFrame_kval (p : Params) (size c : BitVec 11) : (encryptFrame p size c s).kval = s.kval := by simp [encryptFrame]
@[simp] theorem encryptFrame_dlen (p : Params) (size c : BitVec 11) : (encryptFrame p size c s).dlen = s.dlen := by simp [encryptFrame]
@[simp] theorem encryptFrame_ck (p : Params) (size c : BitVec 11) : (encryptFrame p size c s).ck = s.ck := by simp [encryptFrame]
@[simp] theorem encryptFrame_fstate (p : Params) (size c : BitVec 11) : (encryptFrame p size c s).fstate = s.fstate := by simp [encryptFrame]
@[simp] theorem encryptFrame_need (p : Params) (size c : BitVec 11) : (encryptFrame p size c s).need = s.need := by simp [encryptFrame]
@[simp] theorem encryptFrame_err (p : Params) (size c : BitVec 11) : (encryptFrame p size c s).err = s.err := by simp [encryptFrame]
@[simp] theorem encryptFrame_ctrl (p : Params) (size c : BitVec 11) : (encryptFrame p size c s).ctrl = s.ctrl := by simp [encryptFrame]
@[simp] theorem encryptFrame_rxlen (p : Params) (size c : BitVec 11) : (encryptFrame p size c s).rxlen = s.rxlen := by simp [encryptFrame]
@[simp] theorem encryptFrame_pt (p : Params) (size c : BitVec 11) : (encryptFrame p size c s).pt = s.pt := by simp [encryptFrame]
@[simp] theorem encryptFrame_itab (p : Params) (size c : BitVec 11) : (encryptFrame p size c s).itab = s.itab := by simp [encryptFrame]
@[simp] theorem encryptFrame_vsel (p : Params) (size c : BitVec 11) : (encryptFrame p size c s).vsel = s.vsel := by simp [encryptFrame]
@[simp] theorem encryptFrame_rxbuf (p : Params) (size c : BitVec 11) : (encryptFrame p size c s).rxbuf = s.rxbuf := by simp [encryptFrame]
@[simp] theorem encryptFrame_pending (p : Params) (size c : BitVec 11) : (encryptFrame p size c s).pending = s.pending := by simp [encryptFrame]
@[simp] theorem encryptFrame_response (p : Params) (size c : BitVec 11) : (encryptFrame p size c s).response = s.response := by simp [encryptFrame]
@[simp] theorem encryptFrame_codecAlt (p : Params) (size c : BitVec 11) : (encryptFrame p size c s).codecAlt = s.codecAlt := by simp [encryptFrame]
@[simp] theorem encryptFrame_auto (p : Params) (size c : BitVec 11) : (encryptFrame p size c s).auto = s.auto := by simp [encryptFrame]
@[simp] theorem encryptFrame_txdir (p : Params) (size c : BitVec 11) : (encryptFrame p size c s).txdir = s.txdir := by simp [encryptFrame]
@[simp] theorem encryptFrame_rxdir (p : Params) (size c : BitVec 11) : (encryptFrame p size c s).rxdir = s.rxdir := by simp [encryptFrame]
@[simp] theorem encryptFrame_txlen (p : Params) (size c : BitVec 11) : (encryptFrame p size c s).txlen = size := by simp [encryptFrame]

/-! ### aencryptFrame (R193) -/

@[simp] theorem aencryptFrame_seed (p : Params) (size : BitVec 11) : (aencryptFrame p size s).seed = s.seed := by simp [aencryptFrame]
@[simp] theorem aencryptFrame_ksvalid (p : Params) (size : BitVec 11) : (aencryptFrame p size s).ksvalid = s.ksvalid := by simp [aencryptFrame]
@[simp] theorem aencryptFrame_blen (p : Params) (size : BitVec 11) : (aencryptFrame p size s).blen = s.blen := by simp [aencryptFrame]
@[simp] theorem aencryptFrame_cmd (p : Params) (size : BitVec 11) : (aencryptFrame p size s).cmd = s.cmd := by simp [aencryptFrame]
@[simp] theorem aencryptFrame_tsalt (p : Params) (size : BitVec 11) : (aencryptFrame p size s).tsalt = s.tsalt := by simp [aencryptFrame]
@[simp] theorem aencryptFrame_rsalt (p : Params) (size : BitVec 11) : (aencryptFrame p size s).rsalt = s.rsalt := by simp [aencryptFrame]
@[simp] theorem aencryptFrame_kval (p : Params) (size : BitVec 11) : (aencryptFrame p size s).kval = s.kval := by simp [aencryptFrame]
@[simp] theorem aencryptFrame_dlen (p : Params) (size : BitVec 11) : (aencryptFrame p size s).dlen = s.dlen := by simp [aencryptFrame]
@[simp] theorem aencryptFrame_ck (p : Params) (size : BitVec 11) : (aencryptFrame p size s).ck = s.ck := by simp [aencryptFrame]
@[simp] theorem aencryptFrame_fstate (p : Params) (size : BitVec 11) : (aencryptFrame p size s).fstate = s.fstate := by simp [aencryptFrame]
@[simp] theorem aencryptFrame_need (p : Params) (size : BitVec 11) : (aencryptFrame p size s).need = s.need := by simp [aencryptFrame]
@[simp] theorem aencryptFrame_err (p : Params) (size : BitVec 11) : (aencryptFrame p size s).err = s.err := by simp [aencryptFrame]
@[simp] theorem aencryptFrame_ctrl (p : Params) (size : BitVec 11) : (aencryptFrame p size s).ctrl = s.ctrl := by simp [aencryptFrame]
@[simp] theorem aencryptFrame_rxlen (p : Params) (size : BitVec 11) : (aencryptFrame p size s).rxlen = s.rxlen := by simp [aencryptFrame]
@[simp] theorem aencryptFrame_pt (p : Params) (size : BitVec 11) : (aencryptFrame p size s).pt = s.pt := by simp [aencryptFrame]
@[simp] theorem aencryptFrame_itab (p : Params) (size : BitVec 11) : (aencryptFrame p size s).itab = s.itab := by simp [aencryptFrame]
@[simp] theorem aencryptFrame_vsel (p : Params) (size : BitVec 11) : (aencryptFrame p size s).vsel = s.vsel := by simp [aencryptFrame]
@[simp] theorem aencryptFrame_rxbuf (p : Params) (size : BitVec 11) : (aencryptFrame p size s).rxbuf = s.rxbuf := by simp [aencryptFrame]
@[simp] theorem aencryptFrame_pending (p : Params) (size : BitVec 11) : (aencryptFrame p size s).pending = s.pending := by simp [aencryptFrame]
@[simp] theorem aencryptFrame_response (p : Params) (size : BitVec 11) : (aencryptFrame p size s).response = s.response := by simp [aencryptFrame]
@[simp] theorem aencryptFrame_codecAlt (p : Params) (size : BitVec 11) : (aencryptFrame p size s).codecAlt = s.codecAlt := by simp [aencryptFrame]
@[simp] theorem aencryptFrame_auto (p : Params) (size : BitVec 11) : (aencryptFrame p size s).auto = s.auto := by simp [aencryptFrame]
@[simp] theorem aencryptFrame_txdir (p : Params) (size : BitVec 11) : (aencryptFrame p size s).txdir = s.txdir := by simp [aencryptFrame]
@[simp] theorem aencryptFrame_rxdir (p : Params) (size : BitVec 11) : (aencryptFrame p size s).rxdir = s.rxdir := by simp [aencryptFrame]
@[simp] theorem aencryptFrame_txlen (p : Params) (size : BitVec 11) : (aencryptFrame p size s).txlen = size := by simp [aencryptFrame]

/-! ### plainFrame (R179) -/

@[simp] theorem plainFrame_seed (n c : BitVec 11) : (plainFrame n c s).seed = s.seed := by simp [plainFrame]
@[simp] theorem plainFrame_ksvalid (n c : BitVec 11) : (plainFrame n c s).ksvalid = s.ksvalid := by simp [plainFrame]
@[simp] theorem plainFrame_blen (n c : BitVec 11) : (plainFrame n c s).blen = s.blen := by simp [plainFrame]
@[simp] theorem plainFrame_cmd (n c : BitVec 11) : (plainFrame n c s).cmd = s.cmd := by simp [plainFrame]
@[simp] theorem plainFrame_tsalt (n c : BitVec 11) : (plainFrame n c s).tsalt = s.tsalt := by simp [plainFrame]
@[simp] theorem plainFrame_rsalt (n c : BitVec 11) : (plainFrame n c s).rsalt = s.rsalt := by simp [plainFrame]
@[simp] theorem plainFrame_kval (n c : BitVec 11) : (plainFrame n c s).kval = s.kval := by simp [plainFrame]
@[simp] theorem plainFrame_dlen (n c : BitVec 11) : (plainFrame n c s).dlen = s.dlen := by simp [plainFrame]
@[simp] theorem plainFrame_ck (n c : BitVec 11) : (plainFrame n c s).ck = s.ck := by simp [plainFrame]
@[simp] theorem plainFrame_fstate (n c : BitVec 11) : (plainFrame n c s).fstate = s.fstate := by simp [plainFrame]
@[simp] theorem plainFrame_need (n c : BitVec 11) : (plainFrame n c s).need = s.need := by simp [plainFrame]
@[simp] theorem plainFrame_err (n c : BitVec 11) : (plainFrame n c s).err = s.err := by simp [plainFrame]
@[simp] theorem plainFrame_ctrl (n c : BitVec 11) : (plainFrame n c s).ctrl = s.ctrl := by simp [plainFrame]
@[simp] theorem plainFrame_rxlen (n c : BitVec 11) : (plainFrame n c s).rxlen = s.rxlen := by simp [plainFrame]
@[simp] theorem plainFrame_txlen (n c : BitVec 11) : (plainFrame n c s).txlen = s.txlen := by simp [plainFrame]
@[simp] theorem plainFrame_pt (n c : BitVec 11) : (plainFrame n c s).pt = s.pt := by simp [plainFrame]
@[simp] theorem plainFrame_itab (n c : BitVec 11) : (plainFrame n c s).itab = s.itab := by simp [plainFrame]
@[simp] theorem plainFrame_vsel (n c : BitVec 11) : (plainFrame n c s).vsel = s.vsel := by simp [plainFrame]
@[simp] theorem plainFrame_rxbuf (n c : BitVec 11) : (plainFrame n c s).rxbuf = s.rxbuf := by simp [plainFrame]
@[simp] theorem plainFrame_pending (n c : BitVec 11) : (plainFrame n c s).pending = s.pending := by simp [plainFrame]
@[simp] theorem plainFrame_response (n c : BitVec 11) : (plainFrame n c s).response = s.response := by simp [plainFrame]
@[simp] theorem plainFrame_codecAlt (n c : BitVec 11) : (plainFrame n c s).codecAlt = s.codecAlt := by simp [plainFrame]
@[simp] theorem plainFrame_auto (n c : BitVec 11) : (plainFrame n c s).auto = s.auto := by simp [plainFrame]
@[simp] theorem plainFrame_txdir (n c : BitVec 11) : (plainFrame n c s).txdir = s.txdir := by simp [plainFrame]
@[simp] theorem plainFrame_rxdir (n c : BitVec 11) : (plainFrame n c s).rxdir = s.rxdir := by simp [plainFrame]

/-! ### runHeader (R171) -/

@[simp] theorem runHeader_seed (p : Params) : (runHeader p s).seed = s.seed := by unfold runHeader; split <;> rfl
@[simp] theorem runHeader_ksvalid (p : Params) : (runHeader p s).ksvalid = s.ksvalid := by unfold runHeader; split <;> rfl
@[simp] theorem runHeader_fstate (p : Params) : (runHeader p s).fstate = s.fstate := by unfold runHeader; split <;> rfl
@[simp] theorem runHeader_need (p : Params) : (runHeader p s).need = s.need := by unfold runHeader; split <;> rfl
@[simp] theorem runHeader_err (p : Params) : (runHeader p s).err = s.err := by unfold runHeader; split <;> rfl
@[simp] theorem runHeader_ctrl (p : Params) : (runHeader p s).ctrl = s.ctrl := by unfold runHeader; split <;> rfl
@[simp] theorem runHeader_rxlen (p : Params) : (runHeader p s).rxlen = s.rxlen := by unfold runHeader; split <;> rfl
@[simp] theorem runHeader_txlen (p : Params) : (runHeader p s).txlen = s.txlen := by unfold runHeader; split <;> rfl
@[simp] theorem runHeader_pt (p : Params) : (runHeader p s).pt = s.pt := by unfold runHeader; split <;> rfl
@[simp] theorem runHeader_itab (p : Params) : (runHeader p s).itab = s.itab := by unfold runHeader; split <;> rfl
@[simp] theorem runHeader_vsel (p : Params) : (runHeader p s).vsel = s.vsel := by unfold runHeader; split <;> rfl
@[simp] theorem runHeader_txbuf (p : Params) : (runHeader p s).txbuf = s.txbuf := by unfold runHeader; split <;> rfl
@[simp] theorem runHeader_pending (p : Params) : (runHeader p s).pending = s.pending := by unfold runHeader; split <;> rfl
@[simp] theorem runHeader_response (p : Params) : (runHeader p s).response = s.response := by unfold runHeader; split <;> rfl
@[simp] theorem runHeader_codecAlt (p : Params) : (runHeader p s).codecAlt = s.codecAlt := by unfold runHeader; split <;> rfl
@[simp] theorem runHeader_auto (p : Params) : (runHeader p s).auto = s.auto := by unfold runHeader; split <;> rfl
@[simp] theorem runHeader_txdir (p : Params) : (runHeader p s).txdir = s.txdir := by unfold runHeader; split <;> rfl
@[simp] theorem runHeader_rxdir (p : Params) : (runHeader p s).rxdir = s.rxdir := by unfold runHeader; split <;> rfl

/-! ### runBody (R172) -/

@[simp] theorem runBody_seed (p : Params) : (runBody p s).1.seed = s.seed := by unfold runBody; split <;> rfl
@[simp] theorem runBody_ksvalid (p : Params) : (runBody p s).1.ksvalid = s.ksvalid := by unfold runBody; split <;> rfl
@[simp] theorem runBody_blen (p : Params) : (runBody p s).1.blen = s.blen := by unfold runBody; split <;> rfl
@[simp] theorem runBody_cmd (p : Params) : (runBody p s).1.cmd = s.cmd := by unfold runBody; split <;> rfl
@[simp] theorem runBody_tsalt (p : Params) : (runBody p s).1.tsalt = s.tsalt := by unfold runBody; split <;> rfl
@[simp] theorem runBody_rsalt (p : Params) : (runBody p s).1.rsalt = s.rsalt := by unfold runBody; split <;> rfl
@[simp] theorem runBody_kval (p : Params) : (runBody p s).1.kval = s.kval := by unfold runBody; split <;> rfl
@[simp] theorem runBody_dlen (p : Params) : (runBody p s).1.dlen = s.dlen := by unfold runBody; split <;> rfl
@[simp] theorem runBody_fstate (p : Params) : (runBody p s).1.fstate = s.fstate := by unfold runBody; split <;> rfl
@[simp] theorem runBody_need (p : Params) : (runBody p s).1.need = s.need := by unfold runBody; split <;> rfl
@[simp] theorem runBody_err (p : Params) : (runBody p s).1.err = s.err := by unfold runBody; split <;> rfl
@[simp] theorem runBody_ctrl (p : Params) : (runBody p s).1.ctrl = s.ctrl := by unfold runBody; split <;> rfl
@[simp] theorem runBody_rxlen (p : Params) : (runBody p s).1.rxlen = s.rxlen := by unfold runBody; split <;> rfl
@[simp] theorem runBody_txlen (p : Params) : (runBody p s).1.txlen = s.txlen := by unfold runBody; split <;> rfl
@[simp] theorem runBody_pt (p : Params) : (runBody p s).1.pt = s.pt := by unfold runBody; split <;> rfl
@[simp] theorem runBody_itab (p : Params) : (runBody p s).1.itab = s.itab := by unfold runBody; split <;> rfl
@[simp] theorem runBody_vsel (p : Params) : (runBody p s).1.vsel = s.vsel := by unfold runBody; split <;> rfl
@[simp] theorem runBody_txbuf (p : Params) : (runBody p s).1.txbuf = s.txbuf := by unfold runBody; split <;> rfl
@[simp] theorem runBody_pending (p : Params) : (runBody p s).1.pending = s.pending := by unfold runBody; split <;> rfl
@[simp] theorem runBody_response (p : Params) : (runBody p s).1.response = s.response := by unfold runBody; split <;> rfl
@[simp] theorem runBody_codecAlt (p : Params) : (runBody p s).1.codecAlt = s.codecAlt := by unfold runBody; split <;> rfl
@[simp] theorem runBody_auto (p : Params) : (runBody p s).1.auto = s.auto := by unfold runBody; split <;> rfl
@[simp] theorem runBody_txdir (p : Params) : (runBody p s).1.txdir = s.txdir := by unfold runBody; split <;> rfl
@[simp] theorem runBody_rxdir (p : Params) : (runBody p s).1.rxdir = s.rxdir := by unfold runBody; split <;> rfl

end Sys2Proof.Machine
end

