-- ==== Sys2Proof/Laws/Codecs.lean ====
section
/-! SUPPORT. Everything each procedure of the codecs does, said once: the state it leaves, and its buffer cell by cell
(spec/43_stream_cipher.md R156, R159, R161; spec/45_alt_codec.md R191 to R193; spec/44_framer.md R179). -/

namespace Sys2Proof.Machine

variable (p : Params) (s : State)

/-- What `n` bytes written from 0 leave in the cells from `n` on. -/
theorem Memory.read_writeList_of_ge {w : Nat} {m : Memory w} (h : m.wf) (vs : List (BitVec w)) {a : Nat}
    (ha : vs.length ≤ a) : (m.writeList 0 vs).read a = m.read a := by
  rw [Memory.read_writeList h, if_pos (Nat.zero_le a), List.getD_eq_default _ _ (by omega)]

/-! ## The stream codec -/

/-- `dechdr()` (R156): the prologue's bytes, and every byte from 5 on left alone. -/
theorem dechdr_read (h : s.rxbuf.wf) (a : Nat) :
    (dechdr p s).rxbuf.read a =
      [lowByte (dechdr p s).dlen, highByte (dechdr p s).dlen, lowByte (dechdr p s).cmd, highByte (dechdr p s).cmd, 0].getD a
        (s.rxbuf.read a) := by
  show (Memory.writeList s.rxbuf 0 _).read a = _
  rw [Memory.read_writeList h, if_pos (Nat.zero_le a)]
  rfl

/-- `decbody()` (R159): each body byte XORed with its keystream byte, the plain bytes folded into `CK`, and the answer. -/
theorem decbody_spec (h : s.rxbuf.wf) :
    ∃ m ck, decbody p s = ((s.setRxbuf m).setCk ck, ck == s.rxbuf.read 5) ∧ m.wf ∧
      (∀ a, m.read a =
        if 6 ≤ a ∧ a < s.blen.toNat then s.rxbuf.read a ^^^ bodyKeystream s.pt s.rsalt s.tsalt a else s.rxbuf.read a) ∧
      ck = ((List.range' 6 (s.blen.toNat - 6)).map
        fun a => s.rxbuf.read a ^^^ bodyKeystream s.pt s.rsalt s.tsalt a).foldl (foldByte p) s.ck := by
  have hr := read_decryptBytes p s.pt s.rsalt s.tsalt (s.blen.toNat - 6) 6 s.ck h
  refine ⟨_, _, ?_, wf_decryptBytes p s.pt s.rsalt s.tsalt (s.blen.toNat - 6) 6 s.ck h, fun a => ?_,
    decryptBytes_checksum p s.pt s.rsalt s.tsalt (s.blen.toNat - 6) 6 s.ck⟩
  · simp only [decbody, hr 5]
    rfl
  · rw [hr]
    simp only [show (6 ≤ a ∧ a < 6 + (s.blen.toNat - 6)) ↔ (6 ≤ a ∧ a < s.blen.toNat) by omega]

/-- `encrypt(size, c)` (R160, R161): the wire header, the checksum byte, each body byte XORed with its keystream byte, and
every byte at or above `size` left alone. -/
theorem encryptFrame_spec (size c : BitVec 11) (hsize : 6 ≤ size.toNat) (h : s.txbuf.wf) :
    ∃ m, encryptFrame p size c s = (s.setTxbuf m).setTxlen size ∧ m.wf ∧
      (∀ j, j < 5 → m.read j = headerByte (encodeHeader s.pt s.txdir (canon size c 1 1 2)) j) ∧
      m.read 5 =
        ((List.range' 6 (size.toNat - 6)).map s.txbuf.read).foldl (foldByte p) (headerChecksum p (canon size c 1 1 2)) ∧
      (∀ a, 6 ≤ a → a < size.toNat → m.read a = s.txbuf.read a ^^^ bodyKeystream s.pt 1 1 a) ∧
      ∀ a, size.toNat ≤ a → m.read a = s.txbuf.read a := by
  have w1 := Memory.wf_writeList h 0 (b5 (encodeHeader s.pt s.txdir (canon size c 1 1 2)))
  have w2 := Memory.wf_write w1 5 (headerChecksum p (canon size c 1 1 2))
  have w3 := wf_encryptBytes p s.pt 1 1 (size.toNat - 6) 6 (headerChecksum p (canon size c 1 1 2)) w2
  have hge : ∀ a, 6 ≤ a →
      ((s.txbuf.writeList 0 (b5 (encodeHeader s.pt s.txdir (canon size c 1 1 2)))).write 5
        (headerChecksum p (canon size c 1 1 2))).read a = s.txbuf.read a := fun a ha => by
    rw [Memory.read_write_ne _ (by omega), Memory.read_writeList_of_ge h _ (Nat.le_of_succ_le ha)]
  refine ⟨_, rfl, Memory.wf_write w3 5 _, fun j hj => ?_, ?_, fun a h1 h2 => ?_, fun a h1 => ?_⟩
  · refine (Memory.read_write_ne _ (by omega) _).trans ((read_encryptBytes p s.pt 1 1 _ 6 _ w2 j).trans ?_)
    rw [if_neg (by omega), Memory.read_write_ne _ (by omega), Memory.read_writeList h, if_pos (Nat.zero_le j)]
    rcases j with _ | _ | _ | _ | _ | j
    all_goals first | rfl | omega
  · refine (Memory.read_write_same w3 5 _).trans ((encryptBytes_checksum p s.pt 1 1 _ 6 _).trans ?_)
    congr 1
    refine List.map_congr_left fun a ha => ?_
    rw [List.mem_range'_1] at ha
    exact hge a ha.1
  · refine (Memory.read_write_ne _ (by omega) _).trans ((read_encryptBytes p s.pt 1 1 _ 6 _ w2 a).trans ?_)
    rw [if_pos (by omega), hge a h1]
  · refine (Memory.read_write_ne _ (by omega) _).trans ((read_encryptBytes p s.pt 1 1 _ 6 _ w2 a).trans ?_)
    rw [if_neg (by omega), hge a (by omega)]

/-! ## The alternate codec -/

/-- `adechdr()` (R191). -/
theorem adechdr_spec (h : s.rxbuf.wf) :
    ∃ m, adechdr p s =
        (s.loadHeader (s.rxbuf.read 1 ++ s.rxbuf.read 0) (m.read 3 ++ m.read 2) 0 0 0 (s.rxbuf.read 1 ++ s.rxbuf.read 0)
          0).setRxbuf m ∧ m.wf ∧
      ∀ a, m.read a = if 2 ≤ a ∧ a < 6 then s.rxbuf.read a ^^^ p.altx else s.rxbuf.read a :=
  ⟨_, rfl, wf_xorBytes p.altx 4 2 h, read_xorBytes p.altx 4 2 h⟩

/-- `adecbody()` (R192): the last two bytes of the frame are left alone. -/
theorem adecbody_spec (h : s.rxbuf.wf) :
    ∃ m, adecbody p s = s.setRxbuf m ∧ m.wf ∧
      ∀ a, m.read a = if 6 ≤ a ∧ a + 2 < s.blen.toNat then s.rxbuf.read a ^^^ p.altx else s.rxbuf.read a := by
  refine ⟨_, rfl, wf_xorBytes p.altx _ 6 h, fun a => ?_⟩
  rw [read_xorBytes _ _ _ h]
  simp only [show (6 ≤ a ∧ a < 6 + (s.blen.toNat - 2 - 6)) ↔ (6 ≤ a ∧ a + 2 < s.blen.toNat) by omega]

/-- `aencrypt(size)` (R193): the length in clear, bytes 2 to `size - 3` XORed, every byte from `size - 2` on left alone. -/
theorem aencryptFrame_spec (size : BitVec 11) (h : s.txbuf.wf) :
    ∃ m, aencryptFrame p size s = (s.setTxbuf m).setTxlen size ∧ m.wf ∧ m.read 0 = lowByte (size.setWidth 16) ∧
      m.read 1 = highByte (size.setWidth 16) ∧
      ∀ a, 2 ≤ a → m.read a = if a < 6 ∨ a + 2 < size.toNat then s.txbuf.read a ^^^ p.altx else s.txbuf.read a := by
  have w1 := Memory.wf_writeList h 0 [lowByte (size.setWidth 16), highByte (size.setWidth 16)]
  have w2 := wf_xorBytes p.altx 4 2 w1
  have hr : ∀ a, (xorBytes p.altx (size.toNat - 2 - 6) 6 (xorBytes p.altx 4 2
      (s.txbuf.writeList 0 [lowByte (size.setWidth 16), highByte (size.setWidth 16)]))).read a =
      if 2 ≤ a ∧ (a < 6 ∨ a + 2 < size.toNat)
      then (s.txbuf.writeList 0 [lowByte (size.setWidth 16), highByte (size.setWidth 16)]).read a ^^^ p.altx
      else (s.txbuf.writeList 0 [lowByte (size.setWidth 16), highByte (size.setWidth 16)]).read a := fun a => by
    rw [read_xorBytes _ _ _ w2, read_xorBytes _ _ _ w1]
    by_cases h1 : a < 6
    · simp only [show ¬ (6 ≤ a ∧ a < 6 + (size.toNat - 2 - 6)) by omega, if_false,
        show (2 ≤ a ∧ a < 2 + 4) ↔ (2 ≤ a ∧ (a < 6 ∨ a + 2 < size.toNat)) by omega]
    · simp only [show ¬ (2 ≤ a ∧ a < 2 + 4) by omega, if_false,
        show (6 ≤ a ∧ a < 6 + (size.toNat - 2 - 6)) ↔ (2 ≤ a ∧ (a < 6 ∨ a + 2 < size.toNat)) by omega]
  refine ⟨_, rfl, wf_xorBytes p.altx _ 6 w2, (hr 0).trans ?_, (hr 1).trans ?_, fun a ha => (hr a).trans ?_⟩
  · rw [if_neg (by omega), Memory.read_writeList h]
    rfl
  · rw [if_neg (by omega), Memory.read_writeList h]
    rfl
  · rw [Memory.read_writeList_of_ge h _ (by simpa using ha)]
    simp only [ha, true_and]

/-! ## The plain frame of `TXSEND` -/

/-- The plain frame (R179; spec/20_memory.md R68 (a)): the prologue, the payload left alone, the padding, and every byte at or
above the frame's size left alone. -/
theorem plainFrame_spec (n c : BitVec 11) (h : s.txbuf.wf) :
    ∃ m, plainFrame n c s = s.setTxbuf m ∧ m.wf ∧
      (∀ a, a < 6 → m.read a =
        [lowByte (BitVec.ofNat 16 (s.frameSize n)), highByte (BitVec.ofNat 16 (s.frameSize n)), lowByte (c.setWidth 16),
          highByte (c.setWidth 16), 0, 0].getD a 0) ∧
      (∀ a, 6 ≤ a → a < 6 + n.toNat → m.read a = s.txbuf.read a) ∧
      (∀ a, 6 + n.toNat ≤ a → a < s.frameSize n → m.read a = 0) ∧
      ∀ a, s.frameSize n ≤ a → m.read a = s.txbuf.read a := by
  have w1 := Memory.wf_writeList h 0 [lowByte (BitVec.ofNat 16 (s.frameSize n)), highByte (BitVec.ofNat 16 (s.frameSize n)),
    lowByte (c.setWidth 16), highByte (c.setWidth 16), 0, 0]
  refine ⟨_, rfl, Memory.wf_writeList w1 (6 + n.toNat) (List.replicate s.padding 0), fun a ha => ?_, fun a h1 h2 => ?_,
    fun a h1 h2 => ?_, fun a h1 => ?_⟩
  · rw [Memory.read_writeList w1, if_neg (by omega), Memory.read_writeList h, if_pos (Nat.zero_le a)]
    rcases a with _ | _ | _ | _ | _ | _ | a
    all_goals first | rfl | omega
  · rw [Memory.read_writeList w1, if_neg (by omega), Memory.read_writeList_of_ge h _ (by simpa using h1)]
  · simp only [State.frameSize] at h2
    rw [Memory.read_writeList w1, if_pos h1, List.getD_eq_getElem _ _ (by simp; omega)]
    simp
  · simp only [State.frameSize] at h1
    rw [Memory.read_writeList w1, if_pos (by omega), List.getD_eq_default _ _ (by simp; omega),
      Memory.read_writeList_of_ge h _ (by simp; omega)]

end Sys2Proof.Machine
end

