-- ==== Sys2Proof/Laws/Outcomes.lean ====
section
/-! SUPPORT. What each shared way of ending a command, and each transition of the framer, can answer: cited in place of
unfolding them (spec/00_scope.md R13, spec/44_framer.md R170 to R172, spec/60_exceptions.md R203). -/

namespace Sys2Proof.Machine

variable {p : Params} {s t : State}

@[simp] theorem complete_eq_next {r : BitVec 32} : complete s r = .next t ↔ t = s.respond stOk r := by
  rw [complete, Host.Outcome.next.injEq, eq_comm]

@[simp] theorem refuse_eq_next {c : BitVec 8} : refuse s c = .next t ↔ t = s.respond c 0 := by
  rw [refuse, Host.Outcome.next.injEq, eq_comm]

@[simp] theorem raiseFatal_eq_next {e : BitVec 3} :
    raiseFatal s e = .next t ↔ t = (s.enterFailed e).respond stFatal ((s.enterFailed e).err.setWidth 32) := by
  rw [raiseFatal, Host.Outcome.next.injEq, eq_comm]

@[simp] theorem leaveByReset_eq_next : leaveByReset s = .next t ↔ t = s.resetBlock.respond stOk 0 := by
  simp [leaveByReset]

@[simp] theorem pushDone_eq_next : pushDone s = .next t ↔ t = s.respond stOk (s.fstate.code.setWidth 32) := by
  simp [pushDone]

@[simp] theorem complete_ne_fault {r : BitVec 32} {f : Fault} : complete s r ≠ .fault f := by simp [complete]
@[simp] theorem refuse_ne_fault {c : BitVec 8} {f : Fault} : refuse s c ≠ .fault f := by simp [refuse]
@[simp] theorem raiseFatal_ne_fault {e : BitVec 3} {f : Fault} : raiseFatal s e ≠ .fault f := by simp [raiseFatal]
@[simp] theorem leaveByReset_ne_fault {f : Fault} : leaveByReset s ≠ .fault f := by simp [leaveByReset]
@[simp] theorem pushDone_ne_fault {f : Fault} : pushDone s ≠ .fault f := by simp [pushDone]

/-! ## The transitions of the framer -/

/-- What the body transition answers (R172). -/
theorem bodyTransition_cases (h : bodyTransition p s = .next t) :
    (¬ (s.fstate = .awaitBody ∧ s.need.toNat ≤ s.rxlen.toNat) ∧ t = s.respond stOk (s.fstate.code.setWidth 32)) ∨
    ((s.fstate = .awaitBody ∧ s.need.toNat ≤ s.rxlen.toNat) ∧ s.bodyBuffered = true ∧
      (((runBody p s).2 = true ∧ t = (runBody p s).1.becomeReady.respond stOk 2) ∨
       ((runBody p s).2 = false ∧
        t = ((runBody p s).1.enterFailed 3).respond stFatal (((runBody p s).1.enterFailed 3).err.setWidth 32)))) := by
  unfold bodyTransition at h
  split at h
  · next hc =>
    refine .inr ⟨hc, ?_⟩
    split at h
    · next hb =>
      refine ⟨hb, ?_⟩
      split at h
      · next ho => exact .inl ⟨ho, pushDone_eq_next.1 h⟩
      · next ho => exact .inr ⟨by simpa using ho, raiseFatal_eq_next.1 h⟩
    · simp at h
  · next hc => exact .inl ⟨hc, pushDone_eq_next.1 h⟩

/-- When the body transition stops: the bytes its procedure needs are not there. -/
theorem bodyTransition_fault {f : Fault} (h : bodyTransition p s = .fault f) :
    s.fstate = .awaitBody ∧ s.need.toNat ≤ s.rxlen.toNat ∧ s.bodyBuffered = false ∧ f = .bytesMissing := by
  unfold bodyTransition at h
  split at h
  · next hc =>
    split at h
    · split at h <;> simp at h
    · next hb =>
      simp only [Host.Outcome.fault.injEq] at h
      exact ⟨hc.1, hc.2, by simpa using hb, h.symm⟩
  · simp at h

/-- What `advance()` answers (R171): no header transition, a header whose length is no frame's, or a header that the body
transition follows. -/
theorem advance_cases (h : advance p s = .next t) :
    (¬ (s.fstate = .awaitHeader ∧ 6 ≤ s.rxlen.toNat) ∧ bodyTransition p s = .next t) ∨
    ((s.fstate = .awaitHeader ∧ 6 ≤ s.rxlen.toNat) ∧
      ((((runHeader p s).blen.toNat < 6 ∨ 2047 < (runHeader p s).blen.toNat) ∧
          t = ((runHeader p s).enterFailed 2).respond stFatal (((runHeader p s).enterFailed 2).err.setWidth 32)) ∨
       (6 ≤ (runHeader p s).blen.toNat ∧ (runHeader p s).blen.toNat ≤ 2047 ∧
          bodyTransition p ((runHeader p s).awaitBody (runHeader p s).blen) = .next t))) := by
  unfold advance at h
  split at h
  · next hc =>
    refine .inr ⟨hc, ?_⟩
    split at h
    · next hl => exact .inl ⟨hl, raiseFatal_eq_next.1 h⟩
    · next hl =>
      simp only [Config.bufcap] at hl
      exact .inr ⟨by omega, by omega, h⟩
  · next hc => exact .inl ⟨hc, h⟩

/-- What `RXPUSH` answers (R170): a refusal, or in AUTO mode what `advance()` answers, or in manual mode the byte stored. -/
theorem rxpushCommand_cases {b : Byte} (h : rxpushCommand p b s = .next t) :
    (∃ c, t = s.respond c 0 ∧ (c = refFailed ∨ c = refNokey ∨ c = refState ∨ c = refRange)) ∨
    (s.fstate ≠ .failed ∧ s.rxlen.toNat < 2047 ∧
      ((s.auto = true ∧ s.fstate ≠ .ready ∧ (s.codecAlt = true ∨ s.ksvalid = true) ∧ advance p (s.pushByte b) = .next t) ∨
       (s.auto = false ∧ t = (s.pushByte b).respond stOk (s.fstate.code.setWidth 32)))) := by
  unfold rxpushCommand at h
  split at h
  · exact .inl ⟨_, refuse_eq_next.1 h, by simp⟩
  · next hf =>
    split at h
    · next ha =>
      split at h
      · exact .inl ⟨_, refuse_eq_next.1 h, by simp⟩
      · next hk =>
        split at h
        · exact .inl ⟨_, refuse_eq_next.1 h, by simp⟩
        · next hr =>
          split at h
          · simp at h
          · next hl =>
            simp only [Config.bufcap] at hl
            refine .inr ⟨hf, by omega, .inl ⟨ha, hr, ?_, h⟩⟩
            revert hk
            cases s.codecAlt <;> cases s.ksvalid <;> simp
    · next ha =>
      split at h
      · exact .inl ⟨_, refuse_eq_next.1 h, by simp⟩
      · next hl =>
        simp only [Config.bufcap] at hl
        exact .inr ⟨hf, by omega, .inr ⟨by simpa using ha, pushDone_eq_next.1 h⟩⟩

/-! ## One step -/

/-- What a step can do: nothing, when the host gives no word; else answer the word it gives (R80, R85). -/
theorem step_cases (h : step s = .next t) :
    (s.pending = [] ∧ t = s) ∨
    ∃ w q, s.pending = w :: q ∧
      ((∃ i, decode w = .ok i ∧ exec i (s.withPending q) = .next t) ∨
       (∃ e, decode w = .error e ∧ t = (s.withPending q).respond (refusalOf e) 0)) := by
  unfold step fetch at h
  cases hp : s.pending with
  | nil =>
    simp only [hp, Host.Outcome.next.injEq] at h
    exact .inl ⟨rfl, h.symm⟩
  | cons w q =>
    refine .inr ⟨w, q, rfl, ?_⟩
    simp only [hp, answerWord] at h
    cases hd : decode w with
    | ok i =>
      simp only [hd] at h
      exact .inl ⟨i, rfl, h⟩
    | error e =>
      simp only [hd, refuse_eq_next] at h
      exact .inr ⟨e, rfl, h⟩

end Sys2Proof.Machine
end

