-- ==== Sys2Proof/Laws/Commands.lean ====
section
/-! SUPPORT. Everything a command can do, said once: a proof about every command cites `exec_cases` and goes through its cases
instead of unfolding the meanings. -/

namespace Sys2Proof.Machine

/-- `Effect i s t`: command `i` may take the state `s` to `t`. A refusal leaves all but the response (R207); the other
constructors are the commands' own effects, each with the conditions its rule checks. -/
inductive Effect : Instr → State → State → Prop where
  | refused (i : Instr) (s : State) (c : BitVec 8) (hc : c = refFailed ∨ c = refNokey ∨ c = refState ∨ c = refRange) :
      Effect i s (s.respond c 0)
  | nop (s : State) : Effect .nop s (s.respond stOk 0)
  | reset (s : State) : Effect .reset s (s.resetBlock.respond stOk 0)
  | ctrlwr (v : BitVec 4) (s : State) (hf : s.fstate ≠ .failed) (hi : s.idle = true) :
      Effect (.ctrlwr v) s ((s.setCtrl v).respond stOk 0)
  | ctrlrd (s : State) : Effect .ctrlrd s (s.respond stOk (s.ctrl.setWidth 32))
  | status (s : State) : Effect .status s (s.respond stOk s.statusWord)
  | keygen (v : Word) (s : State) (k : KeyTables) (hf : s.fstate ≠ .failed) (hk : s.ksvalid = false)
      (h : ks Config.hardware v = some k) : Effect (.keygen v) s ((s.loadKeys v k).respond stOk 0)
  | getseed (s : State) (r : Word) (hf : s.fstate ≠ .failed) : Effect .getseed s (s.respond stOk r)
  | ptrd (a : BitVec 15) (s : State) (r : Word) (hf : s.fstate ≠ .failed) : Effect (.ptrd a) s (s.respond stOk r)
  | itrd (a : BitVec 9) (s : State) (r : Word) (hf : s.fstate ≠ .failed) : Effect (.itrd a) s (s.respond stOk r)
  | vsrd (a : BitVec 5) (s : State) (r : Word) (hf : s.fstate ≠ .failed) : Effect (.vsrd a) s (s.respond stOk r)
  | hdrrd (k : BitVec 3) (s : State) : Effect (.hdrrd k) s (s.respond stOk (selectedRegister s k))
  | rxpushManual (b : Byte) (s : State) (hf : s.fstate ≠ .failed) (ha : s.auto = false) (hl : s.rxlen.toNat < 2047) :
      Effect (.rxpush b) s ((s.pushByte b).respond stOk (s.fstate.code.setWidth 32))
  | rxpushAuto (b : Byte) (s t : State) (hf : s.fstate ≠ .failed) (ha : s.auto = true)
      (hk : s.codecAlt = true ∨ s.ksvalid = true) (hr : s.fstate ≠ .ready) (hl : s.rxlen.toNat < 2047)
      (h : advance Config.hardware (s.pushByte b) = .next t) : Effect (.rxpush b) s t
  | rxrd (a : BitVec 11) (s : State) (r : Word) (hf : s.fstate ≠ .failed) : Effect (.rxrd a) s (s.respond stOk r)
  | dechdr (s : State) (hf : s.fstate ≠ .failed) (hk : s.ksvalid = true) (ha : s.auto = false) (hl : 6 ≤ s.rxlen.toNat) :
      Effect .dechdr s ((dechdr Config.hardware s).respond stOk ((dechdr Config.hardware s).blen.setWidth 32))
  | decbody (s : State) (hf : s.fstate ≠ .failed) (hk : s.ksvalid = true) (ha : s.auto = false)
      (hb : s.bodyBuffered = true) :
      Effect .decbody s
        ((decbody Config.hardware s).1.respond stOk (if (decbody Config.hardware s).2 then 1 else 0))
  | adechdr (s : State) (hf : s.fstate ≠ .failed) (ha : s.auto = false) (hl : 6 ≤ s.rxlen.toNat) :
      Effect .adechdr s ((adechdr Config.hardware s).respond stOk ((adechdr Config.hardware s).blen.setWidth 32))
  | adecbody (s : State) (hf : s.fstate ≠ .failed) (ha : s.auto = false) (hb : s.bodyBuffered = true) :
      Effect .adecbody s ((adecbody Config.hardware s).respond stOk 1)
  | rxpkt (s : State) (r : Word) (hf : s.fstate ≠ .failed) : Effect .rxpkt s (s.respond stOk r)
  | rxnext (s : State) (hf : s.fstate ≠ .failed) (ha : s.auto = true → s.fstate = .ready) :
      Effect .rxnext s (s.releaseFrame.respond stOk 0)
  | linkdown (s : State) (hf : s.fstate ≠ .failed) :
      Effect .linkdown s ((s.enterFailed 1).respond stFatal ((s.enterFailed 1).err.setWidth 32))
  | txwr (a : BitVec 11) (v : Byte) (s : State) (hf : s.fstate ≠ .failed) (ht : s.txlen = 0) (hl : a.toNat < 2047) :
      Effect (.txwr a v) s ((s.setTxbuf (s.txbuf.write a.toNat v)).respond stOk 0)
  | txrd (a : BitVec 11) (s : State) (r : Word) (hf : s.fstate ≠ .failed) : Effect (.txrd a) s (s.respond stOk r)
  | encrypt (n c : BitVec 11) (s : State) (hf : s.fstate ≠ .failed) (hk : s.ksvalid = true) (ht : s.txlen = 0)
      (hl : 6 ≤ n.toNat) : Effect (.encrypt n c) s ((encryptFrame Config.hardware n c s).respond stOk (n.setWidth 32))
  | aencrypt (n : BitVec 11) (s : State) (hf : s.fstate ≠ .failed) (ht : s.txlen = 0) (hl : 6 ≤ n.toNat) :
      Effect (.aencrypt n) s ((aencryptFrame Config.hardware n s).respond stOk (n.setWidth 32))
  | txsendStream (n c size : BitVec 11) (s : State) (hf : s.fstate ≠ .failed) (hc : s.codecAlt = false)
      (hk : s.ksvalid = true) (ht : s.txlen = 0) (hl : size.toNat = 8 + n.toNat) :
      Effect (.txsend n c) s ((encryptFrame Config.hardware size c (plainFrame n c s)).respond stOk (size.setWidth 32))
  | txsendAlt (n c size : BitVec 11) (s : State) (hf : s.fstate ≠ .failed) (hc : s.codecAlt = true) (ht : s.txlen = 0)
      (hl : size.toNat = 6 + n.toNat) :
      Effect (.txsend n c) s ((aencryptFrame Config.hardware size (plainFrame n c s)).respond stOk (size.setWidth 32))
  | txdone (s : State) (hf : s.fstate ≠ .failed) (ht : s.txlen ≠ 0) :
      Effect .txdone s (((s.setTxlen 0).setTxbuf []).respond stOk 0)

theorem padding_stream {s : State} (h : s.codecAlt = false) : s.padding = 2 := by
  simp [State.padding, h, Config.encKval, Config.encTsalt, Config.encRsalt]

theorem padding_alt {s : State} (h : s.codecAlt = true) : s.padding = 0 := by
  simp [State.padding, h]

/-- Everything a command that gives a next state can do. -/
theorem exec_cases {i : Instr} {s t : State} (h : exec i s = .next t) : Effect i s t := by
  cases i with
  | nop => simp only [exec, execNop, complete_eq_next] at h; subst h; exact .nop s
  | reset => simp only [exec, execReset, leaveByReset_eq_next] at h; subst h; exact .reset s
  | ctrlrd => simp only [exec, execCtrlrd, complete_eq_next] at h; subst h; exact .ctrlrd s
  | status => simp only [exec, execStatus, complete_eq_next] at h; subst h; exact .status s
  | hdrrd k => simp only [exec, execHdrrd, complete_eq_next] at h; subst h; exact .hdrrd k s
  | ctrlwr v =>
    simp only [exec, execCtrlwr] at h
    split at h
    · exact refuse_eq_next.1 h ▸ .refused _ _ _ (by simp)
    · next hf =>
      split at h
      · exact refuse_eq_next.1 h ▸ .refused _ _ _ (by simp)
      · next hi => exact complete_eq_next.1 h ▸ .ctrlwr v s hf (by simpa using hi)
  | keygen v =>
    simp only [exec, execKeygen, keygen] at h
    split at h
    · exact refuse_eq_next.1 h ▸ .refused _ _ _ (by simp)
    · next hf =>
      split at h
      · exact refuse_eq_next.1 h ▸ .refused _ _ _ (by simp)
      · next hk =>
        split at h
        · simp at h
        · next k hks => exact complete_eq_next.1 h ▸ .keygen v s k hf (by simpa using hk) hks
  | getseed =>
    simp only [exec, execGetseed] at h
    split at h
    · exact refuse_eq_next.1 h ▸ .refused _ _ _ (by simp)
    · next hf =>
      split at h
      · exact complete_eq_next.1 h ▸ .getseed s 0 hf
      · split at h
        · exact refuse_eq_next.1 h ▸ .refused _ _ _ (by simp)
        · exact complete_eq_next.1 h ▸ .getseed s s.seed hf
  | ptrd a =>
    simp only [exec, execPtrd] at h
    split at h
    · exact refuse_eq_next.1 h ▸ .refused _ _ _ (by simp)
    · next hf =>
      split at h
      · exact refuse_eq_next.1 h ▸ .refused _ _ _ (by simp)
      · exact complete_eq_next.1 h ▸ .ptrd a s _ hf
  | itrd a =>
    simp only [exec, execItrd] at h
    split at h
    · exact refuse_eq_next.1 h ▸ .refused _ _ _ (by simp)
    · next hf =>
      split at h
      · exact refuse_eq_next.1 h ▸ .refused _ _ _ (by simp)
      · exact complete_eq_next.1 h ▸ .itrd a s _ hf
  | vsrd a =>
    simp only [exec, execVsrd] at h
    split at h
    · exact refuse_eq_next.1 h ▸ .refused _ _ _ (by simp)
    · next hf =>
      split at h
      · exact refuse_eq_next.1 h ▸ .refused _ _ _ (by simp)
      · split at h
        · exact refuse_eq_next.1 h ▸ .refused _ _ _ (by simp)
        · exact complete_eq_next.1 h ▸ .vsrd a s _ hf
  | rxpush b =>
    rcases rxpushCommand_cases h with ⟨c, rfl, hc⟩ | ⟨hf, hl, ⟨ha, hr, hk, h⟩ | ⟨ha, rfl⟩⟩
    · exact .refused _ _ _ hc
    · exact .rxpushAuto b s t hf ha hk hr hl h
    · exact .rxpushManual b s hf ha hl
  | rxrd a =>
    simp only [exec, execRxrd] at h
    split at h
    · exact refuse_eq_next.1 h ▸ .refused _ _ _ (by simp)
    · next hf =>
      split at h
      · exact refuse_eq_next.1 h ▸ .refused _ _ _ (by simp)
      · exact complete_eq_next.1 h ▸ .rxrd a s _ hf
  | dechdr =>
    simp only [exec, execDechdr, dechdrCommand] at h
    split at h
    · exact refuse_eq_next.1 h ▸ .refused _ _ _ (by simp)
    · next hf =>
      split at h
      · exact refuse_eq_next.1 h ▸ .refused _ _ _ (by simp)
      · next hk =>
        split at h
        · exact refuse_eq_next.1 h ▸ .refused _ _ _ (by simp)
        · next ha =>
          split at h
          · exact refuse_eq_next.1 h ▸ .refused _ _ _ (by simp)
          · next hl => exact complete_eq_next.1 h ▸ .dechdr s hf (by simpa using hk) (by simpa using ha) (by omega)
  | decbody =>
    simp only [exec, execDecbody, decbodyCommand] at h
    split at h
    · exact refuse_eq_next.1 h ▸ .refused _ _ _ (by simp)
    · next hf =>
      split at h
      · exact refuse_eq_next.1 h ▸ .refused _ _ _ (by simp)
      · next hk =>
        split at h
        · exact refuse_eq_next.1 h ▸ .refused _ _ _ (by simp)
        · next ha =>
          split at h
          · exact refuse_eq_next.1 h ▸ .refused _ _ _ (by simp)
          · next hb =>
            exact complete_eq_next.1 h ▸ .decbody s hf (by simpa using hk) (by simpa using ha) (by simpa using hb)
  | rxpkt =>
    simp only [exec, execRxpkt] at h
    split at h
    · exact refuse_eq_next.1 h ▸ .refused _ _ _ (by simp)
    · next hf =>
      split at h
      · exact refuse_eq_next.1 h ▸ .refused _ _ _ (by simp)
      · exact complete_eq_next.1 h ▸ .rxpkt s _ hf
  | rxnext =>
    simp only [exec, execRxnext] at h
    split at h
    · exact refuse_eq_next.1 h ▸ .refused _ _ _ (by simp)
    · next hf =>
      split at h
      · exact refuse_eq_next.1 h ▸ .refused _ _ _ (by simp)
      · next ha => exact complete_eq_next.1 h ▸ .rxnext s hf (by simpa using ha)
  | linkdown =>
    simp only [exec, execLinkdown] at h
    split at h
    · exact refuse_eq_next.1 h ▸ .refused _ _ _ (by simp)
    · next hf => exact raiseFatal_eq_next.1 h ▸ .linkdown s hf
  | adechdr =>
    simp only [exec, execAdechdr, adechdrCommand] at h
    split at h
    · exact refuse_eq_next.1 h ▸ .refused _ _ _ (by simp)
    · next hf =>
      split at h
      · exact refuse_eq_next.1 h ▸ .refused _ _ _ (by simp)
      · next ha =>
        split at h
        · exact refuse_eq_next.1 h ▸ .refused _ _ _ (by simp)
        · next hl => exact complete_eq_next.1 h ▸ .adechdr s hf (by simpa using ha) (by omega)
  | adecbody =>
    simp only [exec, execAdecbody, adecbodyCommand] at h
    split at h
    · exact refuse_eq_next.1 h ▸ .refused _ _ _ (by simp)
    · next hf =>
      split at h
      · exact refuse_eq_next.1 h ▸ .refused _ _ _ (by simp)
      · next ha =>
        split at h
        · exact refuse_eq_next.1 h ▸ .refused _ _ _ (by simp)
        · next hb => exact complete_eq_next.1 h ▸ .adecbody s hf (by simpa using ha) (by simpa using hb)
  | txwr a v =>
    simp only [exec, execTxwr] at h
    split at h
    · exact refuse_eq_next.1 h ▸ .refused _ _ _ (by simp)
    · next hf =>
      split at h
      · exact refuse_eq_next.1 h ▸ .refused _ _ _ (by simp)
      · next ht =>
        split at h
        · exact refuse_eq_next.1 h ▸ .refused _ _ _ (by simp)
        · next hl =>
          exact complete_eq_next.1 h ▸ .txwr a v s hf (by simpa using ht) (by simp only [Config.bufcap] at hl; omega)
  | txrd a =>
    simp only [exec, execTxrd] at h
    split at h
    · exact refuse_eq_next.1 h ▸ .refused _ _ _ (by simp)
    · next hf =>
      split at h
      · exact refuse_eq_next.1 h ▸ .refused _ _ _ (by simp)
      · exact complete_eq_next.1 h ▸ .txrd a s _ hf
  | encrypt n c =>
    simp only [exec, execEncrypt, encryptCommand] at h
    split at h
    · exact refuse_eq_next.1 h ▸ .refused _ _ _ (by simp)
    · next hf =>
      split at h
      · exact refuse_eq_next.1 h ▸ .refused _ _ _ (by simp)
      · next hk =>
        split at h
        · exact refuse_eq_next.1 h ▸ .refused _ _ _ (by simp)
        · next ht =>
          split at h
          · exact refuse_eq_next.1 h ▸ .refused _ _ _ (by simp)
          · next hl =>
            exact complete_eq_next.1 h ▸ .encrypt n c s hf (by simpa using hk) (by simpa using ht) (by omega)
  | aencrypt n =>
    simp only [exec, execAencrypt, aencryptCommand] at h
    split at h
    · exact refuse_eq_next.1 h ▸ .refused _ _ _ (by simp)
    · next hf =>
      split at h
      · exact refuse_eq_next.1 h ▸ .refused _ _ _ (by simp)
      · next ht =>
        split at h
        · exact refuse_eq_next.1 h ▸ .refused _ _ _ (by simp)
        · next hl => exact complete_eq_next.1 h ▸ .aencrypt n s hf (by simpa using ht) (by omega)
  | txsend n c =>
    simp only [exec, execTxsend, txsendCommand] at h
    split at h
    · exact refuse_eq_next.1 h ▸ .refused _ _ _ (by simp)
    · next hf =>
      split at h
      · exact refuse_eq_next.1 h ▸ .refused _ _ _ (by simp)
      · next hk =>
        split at h
        · exact refuse_eq_next.1 h ▸ .refused _ _ _ (by simp)
        · next ht =>
          split at h
          · exact refuse_eq_next.1 h ▸ .refused _ _ _ (by simp)
          · next hl =>
            simp only [complete_eq_next] at h
            subst h
            cases hc : s.codecAlt with
            | true =>
              simp only [Config.bufcap, State.frameSize, padding_alt hc] at hl
              rw [if_pos rfl]
              exact .txsendAlt n c _ s hf hc (by simpa using ht)
                (by simp only [State.frameSize, padding_alt hc, BitVec.toNat_ofNat]; omega)
            | false =>
              simp only [Config.bufcap, State.frameSize, padding_stream hc] at hl
              rw [if_neg (by simp)]
              exact .txsendStream n c _ s hf hc (by simpa [hc] using hk) (by simpa using ht)
                (by simp only [State.frameSize, padding_stream hc, BitVec.toNat_ofNat]; omega)
  | txdone =>
    simp only [exec, execTxdone] at h
    split at h
    · exact refuse_eq_next.1 h ▸ .refused _ _ _ (by simp)
    · next hf =>
      split at h
      · exact refuse_eq_next.1 h ▸ .refused _ _ _ (by simp)
      · next ht => exact complete_eq_next.1 h ▸ .txdone s hf ht

end Sys2Proof.Machine
end

