-- ==== Sys2Proof/Laws/Encoding.lean ====
section
/-! SUPPORT. The fields of a command word, and when a field fits its bits (spec/30_encoding.md R81, R83). -/

namespace Sys2Proof

/-- Bit `i` of a command word, field by field. -/
theorem commandWord_getLsbD (op : BitVec 8) (a b : BitVec 12) (d : BitVec 32) (i : Nat) :
    (commandWord op a b d).getLsbD i =
      if i < 32 then d.getLsbD i else if i < 44 then b.getLsbD (i - 32) else if i < 56 then a.getLsbD (i - 44)
      else op.getLsbD (i - 56) := by
  show (op ++ a ++ b ++ d : BitVec (8 + 12 + 12 + 32)).getLsbD i = _
  simp only [BitVec.getLsbD_append]
  by_cases h1 : i < 32
  · simp [h1]
  · by_cases h2 : i < 44
    · simp [h1, h2, show i - 32 < 12 by omega]
    · by_cases h3 : i < 56
      · simp [h1, h2, h3, show ¬ i - 32 < 12 by omega, show i - 44 < 12 by omega, show i - 32 - 12 = i - 44 by omega]
      · simp [h1, h2, h3, show ¬ i - 32 < 12 by omega, show ¬ i - 44 < 12 by omega,
          show i - 32 - 12 = i - 44 by omega, show i - 44 - 12 = i - 56 by omega]

@[simp] theorem opField_commandWord (op : BitVec 8) (a b : BitVec 12) (d : BitVec 32) :
    opField (commandWord op a b d) = op := by
  refine BitVec.eq_of_getLsbD_eq fun i hi => ?_
  simp [opField, commandWord_getLsbD, hi, show ¬ 56 + i < 32 by omega, show ¬ 56 + i < 44 by omega]

@[simp] theorem aField_commandWord (op : BitVec 8) (a b : BitVec 12) (d : BitVec 32) :
    aField (commandWord op a b d) = a := by
  refine BitVec.eq_of_getLsbD_eq fun i hi => ?_
  simp [aField, commandWord_getLsbD, hi, show ¬ 44 + i < 32 by omega, show 44 + i < 56 by omega]

@[simp] theorem bField_commandWord (op : BitVec 8) (a b : BitVec 12) (d : BitVec 32) :
    bField (commandWord op a b d) = b := by
  refine BitVec.eq_of_getLsbD_eq fun i hi => ?_
  simp [bField, commandWord_getLsbD, hi, show 32 + i < 44 by omega]

@[simp] theorem dField_commandWord (op : BitVec 8) (a b : BitVec 12) (d : BitVec 32) :
    dField (commandWord op a b d) = d := by
  refine BitVec.eq_of_getLsbD_eq fun i hi => ?_
  simp [dField, commandWord_getLsbD, hi]

/-- A word is its four fields side by side. -/
theorem commandWord_fields (w : Command) : commandWord (opField w) (aField w) (bField w) (dField w) = w := by
  refine BitVec.eq_of_getLsbD_eq fun i hi => ?_
  rw [commandWord_getLsbD]
  by_cases h1 : i < 32
  · simp [dField, h1]
  · by_cases h2 : i < 44
    · simp [bField, h1, h2, show i - 32 < 12 by omega, show 32 + (i - 32) = i by omega]
    · by_cases h3 : i < 56
      · simp [aField, h1, h2, h3, show i - 44 < 12 by omega, show 44 + (i - 44) = i by omega]
      · simp [opField, h1, h2, h3, show i - 56 < 8 by omega, show 56 + (i - 56) = i by omega]

@[simp] theorem fitsIn_zero (n k : Nat) : fitsIn 0#n k = true := by
  simp [fitsIn]

/-- A field fits `k` bits when its value is below `2^k` (R83). -/
theorem fitsIn_iff {n : Nat} (x : BitVec n) (k : Nat) : fitsIn x k = true ↔ x.toNat < 2 ^ k := by
  rw [fitsIn, beq_iff_eq, ← BitVec.toNat_inj, BitVec.toNat_ushiftRight, Nat.shiftRight_eq_div_pow]
  simp [Nat.div_eq_zero_iff]

/-- A field whose row uses no bit of it fits exactly when it is zero. -/
@[simp] theorem fitsIn_none {n : Nat} (x : BitVec n) : fitsIn x 0 = true ↔ x = 0#n := by
  rw [fitsIn_iff, ← BitVec.toNat_inj]
  simp

/-- A field whose row uses all its bits always fits. -/
@[simp] theorem fitsIn_all {n : Nat} (x : BitVec n) : fitsIn x n = true := (fitsIn_iff x n).2 x.isLt

/-- An operand put into a wider field fits its own width. -/
@[simp] theorem fitsIn_setWidth {k : Nat} (x : BitVec k) (n : Nat) : fitsIn (x.setWidth n) k = true := by
  rw [fitsIn_iff, BitVec.toNat_setWidth]
  exact lt_of_le_of_lt (Nat.mod_le _ _) x.isLt

/-- An operand put into a wider field fits any width its own does not exceed. -/
theorem fitsIn_setWidth_of_le {k m : Nat} (x : BitVec k) (n : Nat) (h : k ≤ m) : fitsIn (x.setWidth n) m = true := by
  rw [fitsIn_iff]
  exact lt_of_lt_of_le ((fitsIn_iff _ _).1 (fitsIn_setWidth x n)) (Nat.pow_le_pow_right (by omega) h)

/-- A field that fits `k` bits is its low `k` bits, put back. -/
theorem setWidth_setWidth_of_fitsIn {n k : Nat} {x : BitVec n} (h : fitsIn x k = true) : (x.setWidth k).setWidth n = x := by
  have hx := (fitsIn_iff x k).1 h
  apply BitVec.eq_of_toNat_eq
  rw [BitVec.toNat_setWidth, BitVec.toNat_setWidth, Nat.mod_eq_of_lt hx, Nat.mod_eq_of_lt x.isLt]

/-- An operation code is the 8-bit number of its value. -/
theorem opField_eq {w : Command} {k : Nat} (h : (opField w).toNat = k) : opField w = BitVec.ofNat 8 k := by
  rw [← h, BitVec.ofNat_toNat, BitVec.setWidth_eq]

/-- When the decoder accepts a row's word: exactly when every field fits. -/
theorem acceptIf_ok {w : Command} {a b d : Nat} {i j : Instr} :
    acceptIf w a b d i = .ok j ↔
      (fitsIn (aField w) a = true ∧ fitsIn (bField w) b = true ∧ fitsIn (dField w) d = true) ∧ i = j := by
  rw [acceptIf]
  split
  · next h => simp_all
  · next h => simp_all

end Sys2Proof
end

