-- ==== Sys2Proof/Laws/PerInstr.lean ====
section
/-! SUPPORT. Statements about every command as syntax, one lemma per constructor. `EncodedFields`: the word of a command has
its row's operation code in bits 63:56, and zero in the bits 55 and 43 that R81 and R83 reserve in every command. -/

namespace Sys2Proof.Laws

/-- The `OP` column of R84. -/
def opcodeOf : Instr → BitVec 8
  | .nop => 0x00
  | .reset => 0x01
  | .ctrlwr _ => 0x02
  | .ctrlrd => 0x03
  | .status => 0x04
  | .keygen _ => 0x05
  | .getseed => 0x06
  | .ptrd _ => 0x07
  | .itrd _ => 0x08
  | .vsrd _ => 0x09
  | .hdrrd _ => 0x0A
  | .rxpush _ => 0x10
  | .rxrd _ => 0x11
  | .dechdr => 0x12
  | .decbody => 0x13
  | .rxpkt => 0x14
  | .rxnext => 0x15
  | .linkdown => 0x16
  | .adechdr => 0x17
  | .adecbody => 0x18
  | .txwr _ _ => 0x20
  | .txrd _ => 0x21
  | .encrypt _ _ => 0x22
  | .aencrypt _ => 0x23
  | .txsend _ _ => 0x24
  | .txdone => 0x25

namespace EncodedFields

/-- The word of the command has its row's operation code, and `A` and `B` fit 11 bits: word bits 55 and 43 are zero
(R81, R83). -/
def Statement (i : Instr) : Prop :=
  opField (encode i) = opcodeOf i ∧ fitsIn (aField (encode i)) 11 = true ∧ fitsIn (bField (encode i)) 11 = true

theorem nop : Statement .nop := by
  simp [Statement, encode, opcodeOf]
theorem reset : Statement .reset := by
  simp [Statement, encode, opcodeOf]
theorem ctrlwr (v : BitVec 4) : Statement (.ctrlwr v) := by
  simp [Statement, encode, opcodeOf]
theorem ctrlrd : Statement .ctrlrd := by
  simp [Statement, encode, opcodeOf]
theorem status : Statement .status := by
  simp [Statement, encode, opcodeOf]
theorem keygen (v : BitVec 32) : Statement (.keygen v) := by
  simp [Statement, encode, opcodeOf]
theorem getseed : Statement .getseed := by
  simp [Statement, encode, opcodeOf]
theorem ptrd (v : BitVec 15) : Statement (.ptrd v) := by
  simp [Statement, encode, opcodeOf]
theorem itrd (v : BitVec 9) : Statement (.itrd v) := by
  simp [Statement, encode, opcodeOf]
theorem vsrd (v : BitVec 5) : Statement (.vsrd v) := by
  simp [Statement, encode, opcodeOf]
theorem hdrrd (v : BitVec 3) : Statement (.hdrrd v) := by
  simp [Statement, encode, opcodeOf, fitsIn_setWidth_of_le]
theorem rxpush (v : BitVec 8) : Statement (.rxpush v) := by
  simp [Statement, encode, opcodeOf]
theorem rxrd (v : BitVec 11) : Statement (.rxrd v) := by
  simp [Statement, encode, opcodeOf]
theorem dechdr : Statement .dechdr := by
  simp [Statement, encode, opcodeOf]
theorem decbody : Statement .decbody := by
  simp [Statement, encode, opcodeOf]
theorem rxpkt : Statement .rxpkt := by
  simp [Statement, encode, opcodeOf]
theorem rxnext : Statement .rxnext := by
  simp [Statement, encode, opcodeOf]
theorem linkdown : Statement .linkdown := by
  simp [Statement, encode, opcodeOf]
theorem adechdr : Statement .adechdr := by
  simp [Statement, encode, opcodeOf]
theorem adecbody : Statement .adecbody := by
  simp [Statement, encode, opcodeOf]
theorem txwr (u : BitVec 11) (v : BitVec 8) : Statement (.txwr u v) := by
  simp [Statement, encode, opcodeOf]
theorem txrd (v : BitVec 11) : Statement (.txrd v) := by
  simp [Statement, encode, opcodeOf]
theorem encrypt (u : BitVec 11) (v : BitVec 11) : Statement (.encrypt u v) := by
  simp [Statement, encode, opcodeOf]
theorem aencrypt (v : BitVec 11) : Statement (.aencrypt v) := by
  simp [Statement, encode, opcodeOf]
theorem txsend (u : BitVec 11) (v : BitVec 11) : Statement (.txsend u v) := by
  simp [Statement, encode, opcodeOf]
theorem txdone : Statement .txdone := by
  simp [Statement, encode, opcodeOf]

end EncodedFields

end Sys2Proof.Laws
end

