-- ==== Sys2Proof/Tests/Slice0.lean ====
section
/-! SUPPORT. Tests: ill-formed words refused, every command's word read back, worked examples of spec/95_test_vectors.md and of
the rules' own examples under the spec's test configuration TC1, and for every obligation with premises a state and operands that
meet them. Expected results are the spec's, not the model's. -/

namespace Sys2Proof.Tests

open Sys2Proof Sys2Proof.Machine Sys2Proof.Safety

/-! ## Helpers -/

/-- A variant of TC1's shape: `s' = (MUL * s + INC) & SMASK`, output `s' >> take`. -/
def lcg (mul inc smask : Word) (take : Nat) (s : Word) : Word × Word :=
  let s' := (mul * s + inc) &&& smask
  (s', s' >>> take)

/-- TC1 (spec/95_test_vectors.md section 1). -/
def tc1 : Params where
  nextA := lcg 0x08088405 1 0xFFFFFFFF 16
  nextB := lcg 0x41C64E6D 12345 0x7FFFFFFF 0
  nextC := lcg 0x41C64E6D 12345 0xFFFFFFFF 16
  nextD := lcg 0x000343FD 0x00269EC3 0x7FFFFFFF 16
  subst := fun x => x * 167 + 13
  altx := 0x61

/-- The cells of `PT` of `KS(0x0042D266)` that the worked frames use (spec/95_test_vectors.md section 3), among them those of
salts 1, 1 at offsets 6 to 12. -/
def somePt : Memory 32 :=
  [(1, 0xC7EE), (2049, 0x2A8DABDE), (4097, 0x8F79), (6145, 0x387C), (8193, 0x9196), (14343, 0x1679), (16392, 0x9E02),
   (18441, 0x10BA08B6), (20490, 0xE05B), (22539, 0x4BAF), (24588, 0xEA7F), (26637, 0x7E61D242)]

/-- A buffer that holds the bytes from address 0. -/
def buf (bs : List Byte) : Memory 8 := Memory.ofList bs

/-- A keyed block after `CTRLWR ctrl`. -/
def keyed (ctrl : BitVec 4) : State := { State.reset with ksvalid := true, seed := 0x42D266, pt := somePt, ctrl := ctrl }

/-- `s` with the bytes buffered in `RXBUF`. -/
def holding (s : State) (bs : List Byte) : State := { s with rxbuf := buf bs, rxlen := BitVec.ofNat 11 bs.length }

/-- The block after a frame whose decoding failed. -/
def failed : State := { State.reset with fstate := .failed, err := 3 }

/-- What the host gets: the response in the next state. -/
def answer : Result → Option Response
  | .next t => t.response
  | .fault _ => none
  | .refused _ => none

/-- One thing read from the next state. -/
def look {α : Type} (f : State → α) : Result → Option α
  | .next t => some (f t)
  | .fault _ => none
  | .refused _ => none

/-- The first `n` bytes of `RXBUF`. -/
def rxBytes (n : Nat) (s : State) : List Byte := bytesOf s.rxbuf 0 n

/-- The first `n` bytes of `TXBUF`. -/
def txBytes (n : Nat) (s : State) : List Byte := bytesOf s.txbuf 0 n

/-! ## Ill-formed words, one for each check, refused by `Command.wellFormed` and by the decoder (R83, R85) -/

theorem test_wf_undefined_opcodes :
    [0x0B#8, 0x0F, 0x19, 0x1F, 0x26, 0x7F, 0xFF].all (fun op =>
      !(Command.wellFormed (commandWord op 0 0 0)) && decide (decode (commandWord op 0 0 0) = .error .illegal)) = true := by
  decide

theorem test_wf_unused_field_d : Command.wellFormed 0x0000000000000001 = false ∧
    decode 0x0000000000000001 = .error .reserved := by decide

theorem test_wf_unused_field_a : Command.wellFormed 0x2500100000000000 = false ∧
    decode 0x2500100000000000 = .error .reserved := by decide

theorem test_wf_unused_field_b : Command.wellFormed 0x2300600100000000 = false ∧
    decode 0x2300600100000000 = .error .reserved := by decide

theorem test_wf_bit_55 : Command.wellFormed 0x2280600600000000 = false ∧
    decode 0x2280600600000000 = .error .reserved := by decide

theorem test_wf_bit_43 : Command.wellFormed 0x240067FF00000000 = true ∧ Command.wellFormed 0x2400680000000000 = false ∧
    decode 0x2400680000000000 = .error .reserved := by decide

theorem test_wf_operand_too_wide :
    [0x0200000000000010#64, 0x0700000000008000, 0x0800000000000200, 0x0900000000000020, 0x0A00800000000000,
      0x1000000000000100, 0x2000000000000100].all (fun w =>
      !(Command.wellFormed w) && decide (decode w = .error .reserved)) = true := by decide

theorem test_wf_reserved_before_failed :
    answer (answerWord 0x2280600600000000 failed) = some ⟨0x11, 0⟩ ∧ answer (answerWord 0x7F00000000000000 failed) = some ⟨0x10, 0⟩ := by
  decide

/-- No two rows of the table admit one word. -/
theorem test_rows_disjoint : opcodeTable.Pairwise fun r q => r.code &&& q.mask ≠ q.code := by decide

/-! ## Every command's word, written from R81 and R84, is read as that command and written back -/

/-- The word is well-formed, decodes to the command, and is what the encoder writes. -/
def reads (w : Command) (i : Instr) : Bool := w.wellFormed && decide (decode w = .ok i) && decide (encode i = w)

theorem test_decode_control :
    (reads 0x0000000000000000 .nop && reads 0x0100000000000000 .reset && reads 0x020000000000000B (.ctrlwr 0xB) &&
      reads 0x0300000000000000 .ctrlrd && reads 0x0400000000000000 .status && reads 0x050000000042D266 (.keygen 0x42D266) &&
      reads 0x05000000FFFFFFFF (.keygen 0xFFFFFFFF) && reads 0x0600000000000000 .getseed) = true := by decide

theorem test_decode_reads :
    (reads 0x0700000000007FFF (.ptrd 0x7FFF) && reads 0x0700000000000801 (.ptrd 2049) && reads 0x08000000000001FF (.itrd 511) &&
      reads 0x0900000000000011 (.vsrd 17) && reads 0x0A00500000000000 (.hdrrd 5) && reads 0x0A00700000000000 (.hdrrd 7)) = true := by
  decide

theorem test_decode_receive :
    (reads 0x10000000000000E2 (.rxpush 0xE2) && reads 0x1100C00000000000 (.rxrd 12) && reads 0x117FF00000000000 (.rxrd 0x7FF) &&
      reads 0x1200000000000000 .dechdr && reads 0x1300000000000000 .decbody && reads 0x1400000000000000 .rxpkt &&
      reads 0x1500000000000000 .rxnext && reads 0x1600000000000000 .linkdown && reads 0x1700000000000000 .adechdr &&
      reads 0x1800000000000000 .adecbody) = true := by decide

theorem test_decode_send :
    (reads 0x2000A0000000006F (.txwr 10 0x6F) && reads 0x217FE00000000000 (.txrd 2046) && reads 0x2200600600000000 (.encrypt 6 6) &&
      reads 0x2300B00000000000 (.aencrypt 11) && reads 0x2400512300000000 (.txsend 5 0x123) &&
      reads 0x240057FF00000000 (.txsend 5 0x7FF) && reads 0x2500000000000000 .txdone) = true := by decide

/-! ## Worked examples of spec/95_test_vectors.md and of the rules -/

/-- Section 3: draws from `new(0x0042D266)` and the corner cases at 0 and 0xFFFFFFFF. -/
theorem test_draws :
    draw tc1 (newGenerator 0x42D266) .A = (0x38FA, ⟨0x38FAB3FF, 0x42D266, 0x42D266, 0x42D266⟩) ∧
    (draw tc1 (draw tc1 (newGenerator 0) .B).2 .B).1 = 0x53DC167E ∧
    (draw tc1 (draw tc1 (newGenerator 0) .C).2 .C).1 = 0xD3DC ∧ (draw tc1 (newGenerator 0xFFFFFFFF) .D).1 = 0x23 := by
  decide

/-- Section 3: step 1 and step 3 of `KS(0x0042D266)`. -/
theorem test_keygen_selectors :
    (draw tc1 (newGenerator 0x42D266) .D).1 = 0x3673 ∧
    (drawSelectors tc1 17 (newGenerator 0x3673)).1 = [0, 1, 2, 3, 0, 1, 2, 3, 0, 1, 2, 3, 0, 1, 2, 3, 0] := by decide

/-- Section 3: `PT[0..3)` of `KS(0x0042D266)`, latest first. -/
theorem test_keygen_first_slots :
    (fillSlots tc1 .A id 3 (drawSelectors tc1 17 (newGenerator 0x3673)).2 []).map Prod.fst = some [0x7B87, 0xC7EE, 0x67AC] := by
  decide

/-- Section 4: the scenario's header and the alternating bits, both directions and back. -/
theorem test_pack_vectors :
    canon 6 6 1 1 2 = 0x00C018008A ∧ pack .s2c 0x00C018008A = 0x00A2020902 ∧ pack .c2s 0x00C018008A = 0x0000825822 ∧
    pack .s2c 0xAAAAA891CD = 0x455A2EA5A6 ∧ pack .c2s 0xAAAAA891CD = 0xA685537A45 ∧ unpack .s2c 0x455A2EA5A6 = 0xAAAAA891CD ∧
    unpack .c2s 0x00A2020902 = 0x2044080428 := by decide

/-- V1: `ENCRYPT 6, 6`. -/
theorem test_encrypt_v1 :
    look (txBytes 6) (encryptCommand tc1 6 6 (keyed 0xA)) = some [0xE2, 0x7C, 0x3B, 0x75, 0x80, 0x0B] ∧
    answer (encryptCommand tc1 6 6 (keyed 0xA)) = some ⟨0, 6⟩ := by decide

/-- V3: `TXSEND 5, 0x123` with the payload "hello". -/
theorem test_txsend_v3 :
    look (txBytes 13) (txsendCommand tc1 5 0x123
      { keyed 2 with txbuf := [(6, 0x68), (7, 0x65), (8, 0x6C), (9, 0x6C), (10, 0x6F)] }) =
      some [0xE2, 0xF8, 0x33, 0x39, 0x81, 0x1D, 0x11, 0x67, 0xDA, 0x37, 0xC0, 0x7F, 0x42] := by decide

/-- A1: `TXSEND 3, 0x10` under the ALT codec. -/
theorem test_txsend_alt_a1 :
    look (txBytes 9) (txsendCommand tc1 3 0x10 { State.reset with ctrl := 0xB, txbuf := [(6, 0x41), (7, 0x42), (8, 0x43)] }) =
      some [0x09, 0x00, 0x71, 0x61, 0x61, 0x61, 0x20, 0x42, 0x43] := by decide

/-- V4: the sixth byte, which decodes the header. -/
theorem test_rxpush_v4_header :
    look (fun t => (t.blen, t.cmd, t.dlen, t.need, t.ck, t.fstate)) (rxpushCommand tc1 0x1D (holding (keyed 2) [0xE2, 0xF8, 0x33,
      0x39, 0x81])) = some (13, 0x123, 11, 13, 0x22, .awaitBody) ∧
    look (rxBytes 6) (rxpushCommand tc1 0x1D (holding (keyed 2) [0xE2, 0xF8, 0x33, 0x39, 0x81])) =
      some [0x0B, 0x00, 0x23, 0x01, 0x00, 0x1D] := by decide

/-- V4 after twelve bytes. -/
def twelveBytes : State :=
  { holding (keyed 2) [0x0B, 0x00, 0x23, 0x01, 0x00, 0x1D, 0x11, 0x67, 0xDA, 0x37, 0xC0, 0x7F] with
    blen := 13, cmd := 0x123, tsalt := 1, rsalt := 1, kval := 2, dlen := 11, ck := 0x22, need := 13, fstate := .awaitBody }

/-- V4 and V5: the last byte, of the frame as sent and of one with a flipped bit. -/
theorem test_rxpush_v4_v5_body :
    look (fun t => (t.response, t.ck, t.fstate, t.err)) (rxpushCommand tc1 0x42 twelveBytes) =
      some (some ⟨0, 2⟩, 0x1D, .ready, 0) ∧
    look (fun t => (t.response, t.ck, t.fstate, t.err))
      (rxpushCommand tc1 0x42 { twelveBytes with rxbuf := twelveBytes.rxbuf.write 8 0xDB }) =
      some (some ⟨1, 3⟩, 0x94, .failed, 3) := by decide

/-- V6: `DECHDR` of the scenario's frame, then `DECBODY`. -/
theorem test_dechdr_v6 :
    answer (dechdrCommand tc1 (holding (keyed 0) [0xE2, 0x7C, 0x3B, 0x75, 0x80, 0x0B])) = some ⟨0, 6⟩ ∧
    look (fun t => ((t.cmd, t.tsalt, t.rsalt), (t.kval, t.dlen, t.ck), rxBytes 6 t))
      (dechdrCommand tc1 (holding (keyed 0) [0xE2, 0x7C, 0x3B, 0x75, 0x80, 0x0B])) =
      some ((6, 1, 1), (2, 4, 0x0B), [0x04, 0x00, 0x06, 0x00, 0x00, 0x0B]) := by decide

theorem test_decbody_v6 :
    answer (decbodyCommand tc1
      { holding (keyed 0) [0x04, 0x00, 0x06, 0x00, 0x00, 0x0B] with
        blen := 6, tsalt := 1, rsalt := 1, ck := 0x0B }) = some ⟨0, 1⟩ ∧
    answer (decbodyCommand tc1 (holding (keyed 0) [0xE2, 0x7C, 0x3B, 0x75, 0x80, 0x0B])) = some ⟨0, 0⟩ := by decide

/-- R191's example. -/
theorem test_adechdr_example :
    look (fun t => (t.response, t.blen, t.cmd, t.dlen, rxBytes 6 t))
      (adechdrCommand tc1 (holding { State.reset with ctrl := 1 } [0x0B, 0x00, 0x9E, 0x66, 0x61, 0x61])) =
      some (some ⟨0, 11⟩, 11, 0x7FF, 11, [0x0B, 0x00, 0xFF, 0x07, 0x00, 0x00]) := by decide

/-- R192's example: bytes 6 to 8 are XORed, bytes 9 and 10 are not. -/
theorem test_adecbody_example :
    look (fun t => (t.response, bytesOf t.rxbuf 6 5)) (adecbodyCommand tc1
      { holding { State.reset with ctrl := 1 } [0x0B, 0x00, 0xFF, 0x07, 0x00, 0x00, 0x33, 0x2E, 0x32, 0x45, 0x21] with blen := 11 }) =
      some (some ⟨0, 1⟩, [0x52, 0x4F, 0x53, 0x45, 0x21]) := by decide

/-- R193's example. -/
theorem test_aencrypt_example :
    look (txBytes 11) (aencryptCommand tc1 11 { State.reset with txbuf := [(2, 0xFF), (3, 0x07), (6, 0x52), (7, 0x4F), (8, 0x53),
      (9, 0x45), (10, 0x21)] }) = some [0x0B, 0x00, 0x9E, 0x66, 0x61, 0x61, 0x33, 0x2E, 0x32, 0x45, 0x21] := by decide

/-- R104's and R174's examples: `Ready` with V3's frame, and the largest frame waiting. -/
theorem test_status_and_rxpkt :
    answer (exec .status { keyed 2 with fstate := .ready, rxlen := 13 }) = some ⟨0, 0x00000D06⟩ ∧
    answer (exec .status { keyed 2 with fstate := .failed, err := 3, rxlen := 13 }) = some ⟨0, 0x00000D37⟩ ∧
    answer (exec .status { keyed 2 with txlen := 2047 }) = some ⟨0, 0x7FF00004⟩ ∧
    answer (exec .rxpkt { keyed 2 with fstate := .ready, cmd := 0x123, dlen := 11 }) = some ⟨0, 0x00050123⟩ ∧
    answer (exec .rxpkt { keyed 2 with fstate := .ready, cmd := 6, dlen := 4 }) = some ⟨0, 6⟩ := by decide

/-- Section 7: priorities of the refusals, and what `Failed` accepts. -/
theorem test_refusal_priorities :
    answer (exec (.encrypt 5 0) State.reset) = some ⟨0x13, 0⟩ ∧
    answer (exec (.txwr 2047 0) { keyed 0xA with txlen := 8 }) = some ⟨0x14, 0⟩ ∧
    answer (exec .dechdr State.reset) = some ⟨0x13, 0⟩ ∧ answer (exec .getseed { State.reset with ctrl := 1 }) = some ⟨0, 0⟩ ∧
    answer (exec .linkdown failed) = some ⟨0x12, 0⟩ ∧ answer (exec (.hdrrd 7) failed) = some ⟨0, 6⟩ := by decide

/-- The first step from reset of a word the host gives (R19): `STATUS`, `LINKDOWN` and a word that is no command. -/
theorem test_step_from_reset :
    answer (step (State.reset.withFetchWord 64 0x0300000000000000)) = some ⟨0, 0xA⟩ ∧
    answer (step (State.reset.withFetchWord 64 0x1600000000000000)) = some ⟨1, 1⟩ ∧
    answer (step (State.reset.withFetchWord 64 0x7F00000000000000)) = some ⟨0x10, 0⟩ ∧
    decodeTableWord 64 0x2400512300000000 = some (.txsend 5 0x123) := by decide

/-! ## States and operands that meet the premises of the statements, one theorem per statement, for each of its clauses and at the
ends of their ranges -/

/-- A configuration under which a key schedule is easily computed: variant B counts in fours, the others stand still. -/
def counting : Params where
  nextA := fun s => (s, 0)
  nextB := fun s => (s + 4, s + 1)
  nextC := fun s => (s, 0)
  nextD := fun s => (s, 0)
  subst := fun x => x
  altx := 0

/-- A first draw that is fresh ends the loop. -/
theorem drawFresh_first (p : Params) (x : Variant) (reduce : Word → Word) (stored : List Word) (n : Nat) (g : Generator)
    (hn : 0 < n) (h : reduce (draw p g x).1 ∉ stored) :
    drawFresh p x reduce stored n g = some (reduce (draw p g x).1, (draw p g x).2) := by
  cases n with
  | zero => omega
  | succ n => simp only [drawFresh, if_neg h]

theorem drawBound_pos : 0 < drawBound := Nat.two_pow_pos 32

/-- Counting from draw `j`: the stored values are draws `i0` to `j - 1`, reduced, and as long as reduced draws differ every
slot takes its first draw. -/
theorem fillSlots_counting (reduce : Word → Word) (i0 top : Nat)
    (hne : ∀ i j, i0 ≤ i → i < j → j < top → reduce (BitVec.ofNat 32 (4 * i) + 1) ≠ reduce (BitVec.ofNat 32 (4 * j) + 1))
    (n : Nat) : ∀ (j : Nat) (g : Generator) (stored : List Word), i0 ≤ j → j + n ≤ top → g.b = BitVec.ofNat 32 (4 * j) →
      (∀ v ∈ stored, ∃ i, i0 ≤ i ∧ i < j ∧ v = reduce (BitVec.ofNat 32 (4 * i) + 1)) →
      ∃ stored' g', fillSlots counting .B reduce n g stored = some (stored', g') ∧ g'.b = BitVec.ofNat 32 (4 * (j + n)) ∧
        ∀ v ∈ stored', ∃ i, i0 ≤ i ∧ i < j + n ∧ v = reduce (BitVec.ofNat 32 (4 * i) + 1) := by
  induction n with
  | zero =>
    intro j g stored _ _ hg hs
    exact ⟨stored, g, rfl, hg, hs⟩
  | succ n ih =>
    intro j g stored h0 ht hg hs
    have hd : (draw counting g .B).1 = BitVec.ofNat 32 (4 * j) + 1 := by rw [← hg]; rfl
    have hb : (draw counting g .B).2.b = BitVec.ofNat 32 (4 * (j + 1)) := by
      show g.b + 4 = _
      rw [hg, show 4 * (j + 1) = 4 * j + 4 by omega, BitVec.ofNat_add]
      rfl
    have hf : reduce (draw counting g .B).1 ∉ stored := fun hm => by
      obtain ⟨i, hi0, hi, hv⟩ := hs _ hm
      rw [hd] at hv
      exact hne i j hi0 hi (by omega) hv.symm
    obtain ⟨stored', g', h1, h2, h3⟩ := ih (j + 1) (draw counting g .B).2 (reduce (draw counting g .B).1 :: stored) (by omega)
      (by omega) hb fun v hv => by
        rcases List.mem_cons.1 hv with rfl | hv
        · exact ⟨j, h0, by omega, by rw [hd]⟩
        · obtain ⟨i, hi0, hi, hv⟩ := hs v hv
          exact ⟨i, hi0, by omega, hv⟩
    refine ⟨stored', g', ?_, by rw [h2]; congr 2; omega, fun v hv => ?_⟩
    · rw [fillSlots, drawFresh_first _ _ _ _ _ _ drawBound_pos hf]
      exact h1
    · obtain ⟨i, hi0, hi, hv⟩ := h3 v hv
      exact ⟨i, hi0, by omega, hv⟩

/-- Rows that all draw from B. -/
theorem fillRows_counting (i0 : Nat) : ∀ (r j : Nat) (g : Generator) (stored : List Word), i0 ≤ j → 4 * (j + 2048 * r) < 2 ^ 32 →
    g.b = BitVec.ofNat 32 (4 * j) →
    (∀ v ∈ stored, ∃ i, i0 ≤ i ∧ i < j ∧ v = id (BitVec.ofNat 32 (4 * i) + 1)) →
    ∃ stored' g', fillRows counting (List.replicate r .B) g stored = some (stored', g') ∧
      g'.b = BitVec.ofNat 32 (4 * (j + 2048 * r)) := by
  intro r
  induction r with
  | zero =>
    intro j g stored _ _ hg _
    exact ⟨stored, g, rfl, hg⟩
  | succ r ih =>
    intro j g stored h0 ht hg hs
    have hne : ∀ a b, i0 ≤ a → a < b → b < j + 2048 →
        id (BitVec.ofNat 32 (4 * a) + 1) ≠ id (BitVec.ofNat 32 (4 * b) + 1) := fun a b _ hab hb he => by
      have := congrArg BitVec.toNat he
      simp only [id, BitVec.toNat_add, BitVec.toNat_ofNat] at this
      omega
    obtain ⟨s1, g1, h1, h2, h3⟩ := fillSlots_counting id i0 (j + 2048) hne 2048 j g stored h0 (le_refl _) hg hs
    obtain ⟨s2, g2, h4, h5⟩ := ih (j + 2048) g1 s1 (by omega) (by omega) h2 h3
    refine ⟨s2, g2, ?_, by rw [h5]; congr 2; omega⟩
    rw [List.replicate_succ, fillRows, h1]
    exact h4

/-- Under the counting configuration the key schedule of seed 0 ends. -/
theorem ks_counting : ∃ k, ks counting 0 = some k := by
  have hs : drawSelectors counting 17 (newGenerator (draw counting (newGenerator 0) .D).1) =
      (List.replicate 17 1, ⟨0, BitVec.ofNat 32 (4 * 17), 0, 0⟩) := by decide
  have hr : ((List.replicate 17 (1 : BitVec 2)).take 16).map variantOf = List.replicate 16 .B := by decide
  have hx : variantOf ((List.replicate 17 (1 : BitVec 2)).getD 16 0) = .B := by decide
  obtain ⟨pt, g, h1, h2⟩ := fillRows_counting 17 16 17 ⟨0, BitVec.ofNat 32 (4 * 17), 0, 0⟩ [] (le_refl _) (by decide) rfl
    (by simp)
  have hne : ∀ i j, 32785 ≤ i → i < j → j < 32785 + 512 →
      (BitVec.ofNat 32 (4 * i) + 1) &&& 0x7FF#32 ≠ (BitVec.ofNat 32 (4 * j) + 1) &&& 0x7FF#32 := fun i j hi hij hj he => by
    have := congrArg BitVec.toNat he
    simp only [BitVec.toNat_and, BitVec.toNat_add, BitVec.toNat_ofNat] at this
    rw [show 2047 % 2 ^ 32 = 2 ^ 11 - 1 by decide, Nat.and_two_pow_sub_one_eq_mod, Nat.and_two_pow_sub_one_eq_mod] at this
    omega
  obtain ⟨it, g', h3, _, _⟩ := fillSlots_counting (· &&& 0x7FF#32) 32785 (32785 + 512) hne 512 32785 g [] (le_refl _)
    (le_refl _) h2 (by simp)
  refine ⟨⟨Memory.ofList (List.replicate 17 1), Memory.ofList pt.reverse, Memory.ofList (it.reverse.map (BitVec.setWidth 16))⟩, ?_⟩
  rw [ks]
  simp only [hs, hr, hx, h1, h3]

/-- A configuration whose variants stand still. -/
def still : Params where
  nextA := fun s => (s, 0)
  nextB := fun s => (s, 0)
  nextC := fun s => (s, 0)
  nextD := fun s => (s, 0)
  subst := fun x => x
  altx := 0

/-- A variant that stands still never gives a second value. -/
theorem drawFresh_still (n : Nat) : ∀ (g : Generator) (stored : List Word), (0 : Word) ∈ stored →
    drawFresh still .A id stored n g = none := by
  induction n with
  | zero => intros; rfl
  | succ n ih =>
    intro g stored h
    rw [drawFresh, if_pos (show id (draw still g .A).1 ∈ stored from h)]
    exact ih _ _ h

/-- Under it the key schedule of seed 0 never ends. -/
theorem ks_still : ks still 0 = none := by
  have hs : drawSelectors still 17 (newGenerator (draw still (newGenerator 0) .D).1) = (List.replicate 17 0, newGenerator 0) := by
    decide
  have hr : ((List.replicate 17 (0 : BitVec 2)).take 16).map variantOf = .A :: List.replicate 15 .A := by decide
  have hf : fillSlots still .A id 2048 (newGenerator 0) [] = none := by
    rw [fillSlots, drawFresh_first _ _ _ _ _ _ drawBound_pos (by simp)]
    simp only
    rw [fillSlots, drawFresh_still _ _ _ (by decide)]
  rw [ks]
  simp only [hs, hr, fillRows, hf]

theorem witness_DecodeInvertsEncode : decode 0x207FF000000000FF = .ok (.txwr 0x7FF 0xFF) := by decide

theorem witness_StepGivesEveryWordItsVerdict :
    (∃ (s : State) (w : Command) (q : List Command), s.pending = w :: q ∧ (w >>> 56).toNat ∉ definedOpcodes) ∧
    (∃ (s : State) (w : Command) (q : List Command),
      s.pending = w :: q ∧ (w >>> 56).toNat ∈ definedOpcodes ∧ w.wellFormed = false) ∧
    ∃ (s : State) (w : Command) (q : List Command),
      s.pending = w :: q ∧ (w >>> 56).toNat ∈ definedOpcodes ∧ w.wellFormed = true :=
  ⟨⟨State.reset.withPending [0x2600000000000000], 0x2600000000000000, [], by decide⟩,
    ⟨State.reset.withPending [0x2500000000000001], 0x2500000000000001, [], by decide⟩,
    ⟨State.reset.withPending [0x247FF7FF00000000, 0], 0x247FF7FF00000000, [0], by decide⟩⟩

theorem witness_StepRunsTheDecodedCommand :
    (∃ (s : State) (w : Command) (q : List Command) (i : Instr), s.pending = w :: q ∧ decode w = .ok i) ∧
    ∃ s : State, s.pending = [] :=
  ⟨⟨State.reset.withPending [0x2500000000000000], 0x2500000000000000, [], .txdone, by decide⟩, State.reset, rfl⟩

theorem witness_PackMovesEachBit : ∃ k l : Nat, k < 40 ∧ l < 40 ∧ k = 0 ∧ l = 39 := ⟨0, 39, by decide⟩

theorem witness_KeystreamCells : ∃ j k : Nat, j < 5 ∧ k < 5 ∧ j = 0 ∧ k = 4 := ⟨0, 4, by decide⟩

theorem witness_HeaderCipherLeavesSaltInClear : ∃ i j : Nat, i < 40 ∧ (saltMask .s2c).getLsbD i = true ∧ j < 40 ∧
    (saltMask .s2c).getLsbD j = false := ⟨36, 39, by decide⟩

theorem witness_KeyScheduleCells : ∃ (p : Params) (seed : Word) (k : KeyTables) (q f i j : Nat),
    ks p seed = some k ∧ q = 16 ∧ f = 32767 ∧ i < j ∧ j = 511 ∧ q < 17 ∧ f < 32768 ∧ j < 512 ∧ j < 32768 :=
  ⟨counting, 0, ks_counting.choose, 16, 32767, 0, 511, ks_counting.choose_spec, by decide⟩

theorem witness_DrawBoundIsExact : ∃ (p : Params) (x : Variant) (reduce : Word → Word) (stored : List Word) (g : Generator),
    drawFresh p x reduce stored drawBound g = none :=
  ⟨still, .A, id, [0], newGenerator 0, drawFresh_still _ _ _ (by decide)⟩

theorem witness_KeygenLoadsTheKeySchedule : ∃ s : State, (s.fstate ≠ .failed ∧ s.ksvalid = false) ∧
    (∃ p k, ks p 0 = some k) ∧ ∃ p, ks p 0 = none :=
  ⟨State.reset, by decide, ⟨counting, ks_counting⟩, still, ks_still⟩

theorem witness_ResetLeavesTheResetValues : ∃ s t : State, t ≠ State.reset ∧ exec .reset s = .next t :=
  ⟨failed, _, by decide, rfl⟩

theorem witness_CtrlwrOnAnIdleBlock : ∃ s : State, s.fstate = .awaitHeader ∧ s.rxlen = 0 ∧ s.txlen = 0 :=
  ⟨keyed 0xA, by decide⟩

theorem witness_GetseedAnswers : ∃ s u : State, (s.fstate ≠ .failed ∧ s.ctrl.getLsbD 0 = true) ∧
    u.fstate ≠ .failed ∧ u.ctrl.getLsbD 0 = false ∧ u.ksvalid = true := ⟨keyed 0xB, keyed 0xA, by decide⟩

theorem witness_ReadCommandsAnswerTheCell : ∃ s : State, s.fstate ≠ .failed ∧ s.ksvalid = true ∧
    (16 : BitVec 5).toNat ≤ 16 ∧ (5 : BitVec 11).toNat < s.rxlen.toNat ∧ (2046 : BitVec 11).toNat < 2047 :=
  ⟨holding (keyed 0) [1, 2, 3, 4, 5, 6], by decide⟩

theorem witness_RxpushAppendsInManualMode : ∃ s u : State,
    (s.fstate ≠ .failed ∧ s.ctrl.getLsbD 1 = false ∧ s.rxlen.toNat = 0 ∧ s.rxbuf.wf) ∧
    u.fstate ≠ .failed ∧ u.ctrl.getLsbD 1 = false ∧ u.rxlen.toNat = 2046 ∧ u.rxbuf.wf :=
  ⟨keyed 0, { keyed 1 with rxlen := 2046 }, by decide⟩

theorem witness_RxpushBuffersUntilNeeded : ∃ s u : State,
    (s.ctrl.getLsbD 1 = true ∧ (s.ctrl.getLsbD 0 = true ∨ s.ksvalid = true) ∧ s.rxbuf.wf ∧ s.rxlen.toNat < 2047 ∧
      s.fstate = .awaitHeader ∧ s.rxlen.toNat + 1 = 5) ∧
    u.ctrl.getLsbD 1 = true ∧ (u.ctrl.getLsbD 0 = true ∨ u.ksvalid = true) ∧ u.rxbuf.wf ∧ u.rxlen.toNat < 2047 ∧
      u.fstate = .awaitBody ∧ u.rxlen.toNat + 1 + 1 = u.need.toNat :=
  ⟨holding (keyed 0xB) [6, 0, 1, 0], { keyed 0xA with fstate := .awaitBody, rxlen := 2045, need := 2047 }, by decide⟩

/-- The first five bytes of a C2S frame of length `l`, under a table of zeros. -/
def fiveBytes (l : BitVec 11) : State :=
  holding { State.reset with ksvalid := true } (b5 (pack .c2s (canon l 0x123 1 1 2)))

theorem witness_RxpushDecodesStreamHeader :
    [5#11, 6, 7, 0x7FF].all (fun l =>
      decide ((fiveBytes l).ctrl.getLsbD 1 = true ∧ (fiveBytes l).ctrl.getLsbD 0 = false ∧ (fiveBytes l).ksvalid = true ∧
        (fiveBytes l).fstate = .awaitHeader ∧ (fiveBytes l).rxlen = 5 ∧ (fiveBytes l).rxbuf.wf ∧
        (receivedHeader (fiveBytes l)).extractLsb' 29 11 = l)) = true := by decide

/-- The last byte but one of a frame of `n` bytes. -/
def lastByteDue (ctrl : BitVec 4) (n : BitVec 16) : State :=
  { keyed ctrl with fstate := .awaitBody, rxlen := (n - 1).setWidth 11, need := n, blen := n }

theorem witness_RxpushVerifiesStreamBody :
    [7#16, 2047].all (fun n =>
      decide ((lastByteDue 0xA n).ctrl.getLsbD 1 = true ∧ (lastByteDue 0xA n).ctrl.getLsbD 0 = false ∧
        (lastByteDue 0xA n).ksvalid = true ∧ (lastByteDue 0xA n).fstate = .awaitBody ∧ 6 ≤ (lastByteDue 0xA n).rxlen.toNat ∧
        (lastByteDue 0xA n).rxlen.toNat + 1 = (lastByteDue 0xA n).need.toNat ∧
        (lastByteDue 0xA n).need = (lastByteDue 0xA n).blen ∧ (lastByteDue 0xA n).need.toNat ≤ 2047 ∧
        (lastByteDue 0xA n).rxbuf.wf)) = true := by decide

theorem witness_RxpushDecodesAltHeader :
    [0#8, 5, 6, 7].all (fun l =>
      decide ((holding (keyed 0xB) [l, 0, 0, 0, 0]).ctrl.getLsbD 1 = true ∧
        (holding (keyed 0xB) [l, 0, 0, 0, 0]).ctrl.getLsbD 0 = true ∧
        (holding (keyed 0xB) [l, 0, 0, 0, 0]).fstate = .awaitHeader ∧ (holding (keyed 0xB) [l, 0, 0, 0, 0]).rxlen = 5 ∧
        (holding (keyed 0xB) [l, 0, 0, 0, 0]).rxbuf.wf ∧
        ((holding (keyed 0xB) [l, 0, 0, 0, 0]).rxbuf.read 1 ++ (holding (keyed 0xB) [l, 0, 0, 0, 0]).rxbuf.read 0).toNat =
          l.toNat)) = true ∧
    ((holding (keyed 0xB) [0xFF, 7, 0, 0, 0]).rxbuf.read 1 ++ (holding (keyed 0xB) [0xFF, 7, 0, 0, 0]).rxbuf.read 0).toNat =
      2047 ∧
    ((holding (keyed 0xB) [0, 8, 0, 0, 0]).rxbuf.read 1 ++ (holding (keyed 0xB) [0, 8, 0, 0, 0]).rxbuf.read 0).toNat = 2048 := by
  decide

theorem witness_RxpushCompletesAltBody :
    [7#16, 2047].all (fun n =>
      decide ((lastByteDue 0xB n).ctrl.getLsbD 1 = true ∧ (lastByteDue 0xB n).ctrl.getLsbD 0 = true ∧
        (lastByteDue 0xB n).fstate = .awaitBody ∧ 6 ≤ (lastByteDue 0xB n).rxlen.toNat ∧
        (lastByteDue 0xB n).rxlen.toNat + 1 = (lastByteDue 0xB n).need.toNat ∧
        (lastByteDue 0xB n).need = (lastByteDue 0xB n).blen ∧ (lastByteDue 0xB n).need.toNat ≤ 2047 ∧
        (lastByteDue 0xB n).rxbuf.wf)) = true := by decide

theorem witness_PacketIsReportedAndReleased : ∃ s u : State,
    (s.fstate ≠ .failed ∧ s.ctrl.getLsbD 1 = false) ∧ u.fstate ≠ .failed ∧ u.fstate = .ready :=
  ⟨keyed 0, { keyed 0xA with fstate := .ready }, by decide⟩

theorem witness_LinkdownRaisesConnectionLost : ∃ s : State, s.fstate ≠ .failed := ⟨keyed 0xA, by decide⟩

theorem witness_SendBufferIsWrittenAndCleared : ∃ s u : State,
    (s.fstate ≠ .failed ∧ s.txlen = 0 ∧ (2046 : BitVec 11).toNat < 2047 ∧ s.txbuf.wf) ∧ u.fstate ≠ .failed ∧ u.txlen ≠ 0 :=
  ⟨{ keyed 0xA with txbuf := [(0, 1)] }, { keyed 0xA with txlen := 6 }, by decide⟩

theorem witness_DechdrDecodesTheHeader : ∃ s : State,
    s.fstate ≠ .failed ∧ s.ksvalid = true ∧ s.ctrl.getLsbD 1 = false ∧ s.rxlen.toNat = 6 ∧ s.rxbuf.wf :=
  ⟨holding (keyed 0) [0xE2, 0x7C, 0x3B, 0x75, 0x80, 0x0B], by decide⟩

theorem witness_DecbodyDecryptsAndVerifies : ∃ s u : State,
    (s.fstate ≠ .failed ∧ s.ksvalid = true ∧ s.ctrl.getLsbD 1 = false ∧ s.rxlen.toNat = 6 ∧ s.blen.toNat = 0 ∧ s.rxbuf.wf) ∧
    u.fstate ≠ .failed ∧ u.ksvalid = true ∧ u.ctrl.getLsbD 1 = false ∧ 6 ≤ u.rxlen.toNat ∧ u.blen.toNat = u.rxlen.toNat ∧
      u.rxbuf.wf :=
  ⟨holding (keyed 0) [1, 2, 3, 4, 5, 6], { holding (keyed 0) [1, 2, 3, 4, 5, 6, 7] with blen := 7 }, by decide⟩

theorem witness_EncryptWritesTheFrame : ∃ s : State, s.fstate ≠ .failed ∧ s.ksvalid = true ∧ s.txlen = 0 ∧
    6 ≤ (6 : BitVec 11).toNat ∧ 6 ≤ (2047 : BitVec 11).toNat ∧ s.txbuf.wf := ⟨{ keyed 0 with txbuf := [(6, 1)] }, by decide⟩

theorem witness_AdechdrDecodesTheHeader : ∃ s : State,
    s.fstate ≠ .failed ∧ s.ctrl.getLsbD 1 = false ∧ s.rxlen.toNat = 6 ∧ s.rxbuf.wf :=
  ⟨holding (keyed 1) [11, 0, 1, 2, 3, 4], by decide⟩

theorem witness_AdecbodyDecodesTheBody : ∃ s u : State,
    (s.fstate ≠ .failed ∧ s.ctrl.getLsbD 1 = false ∧ s.rxlen.toNat = 6 ∧ s.blen.toNat = 1 ∧ s.rxbuf.wf) ∧
    u.fstate ≠ .failed ∧ u.ctrl.getLsbD 1 = false ∧ 6 ≤ u.rxlen.toNat ∧ u.blen.toNat = u.rxlen.toNat ∧ u.rxbuf.wf :=
  ⟨{ holding (keyed 1) [1, 2, 3, 4, 5, 6] with blen := 1 }, { holding (keyed 1) [1, 2, 3, 4, 5, 6, 7, 8, 9] with blen := 9 },
    by decide⟩

theorem witness_AencryptWritesTheFrame : ∃ s : State, s.fstate ≠ .failed ∧ s.txlen = 0 ∧ 6 ≤ (6 : BitVec 11).toNat ∧
    6 ≤ (2047 : BitVec 11).toNat ∧ s.txbuf.wf := ⟨{ State.reset with txbuf := [(6, 1)] }, by decide⟩

theorem witness_TxsendBuildsAStreamFrame : ∃ s : State, s.fstate ≠ .failed ∧ s.ctrl.getLsbD 0 = false ∧ s.ksvalid = true ∧
    s.txlen = 0 ∧ (0 : BitVec 11).toNat ≤ 2039 ∧ (2039 : BitVec 11).toNat ≤ 2039 ∧ s.txbuf.wf :=
  ⟨{ keyed 0xA with txbuf := [(6, 1)] }, by decide⟩

theorem witness_TxsendBuildsAnAltFrame : ∃ s : State, s.fstate ≠ .failed ∧ s.ctrl.getLsbD 0 = true ∧ s.txlen = 0 ∧
    (0 : BitVec 11).toNat ≤ 2041 ∧ (2041 : BitVec 11).toNat ≤ 2041 ∧ s.txbuf.wf :=
  ⟨{ State.reset with ctrl := 0xB, txbuf := [(6, 1)] }, by decide⟩

theorem witness_FailedRefusesAllButFive : ∃ (i j : Instr) (s : State), s.fstate = .failed ∧ ¬ acceptedInFailed i ∧
    acceptedInFailed j :=
  ⟨.getseed, .status, failed, rfl, fun h => h, trivial⟩

theorem witness_NoKeyRefusals : ∃ s : State,
    s.fstate ≠ .failed ∧ s.ksvalid = false ∧ s.ctrl.getLsbD 0 = false ∧ s.ctrl.getLsbD 1 = true :=
  ⟨{ State.reset with txlen := 6 }, by decide⟩

theorem witness_StateRefusals : ∃ s u v w : State,
    (s.fstate = .ready ∧ s.ksvalid = true ∧ s.ctrl.getLsbD 1 = true ∧ s.txlen ≠ 0 ∧
      ¬ (s.fstate = .awaitHeader ∧ s.rxlen = 0 ∧ s.txlen = 0)) ∧
    (u.fstate ≠ .failed ∧ u.ksvalid = true ∧ u.ctrl.getLsbD 1 = false ∧ u.rxlen.toNat = 5) ∧
    (v.fstate ≠ .failed ∧ v.ksvalid = true ∧ v.ctrl.getLsbD 1 = false ∧ v.rxlen.toNat = 6 ∧ v.rxlen.toNat < max 6 v.blen.toNat) ∧
    w.ctrl.getLsbD 1 = true ∧ w.fstate = .awaitBody ∧ w.txlen = 0 :=
  ⟨{ keyed 0xA with fstate := .ready, txlen := 6 }, holding (keyed 0) [1, 2, 3, 4, 5],
    { holding (keyed 0) [1, 2, 3, 4, 5, 6] with blen := 7 }, { keyed 0xA with fstate := .awaitBody }, by decide⟩

theorem witness_RangeRefusals : ∃ s u v : State,
    (s.fstate ≠ .failed ∧ s.ksvalid = true ∧ s.txlen = 0 ∧ s.ctrl.getLsbD 0 = false ∧ 16 < (17 : BitVec 5).toNat ∧
      (2047 : BitVec 11).toNat = 2047 ∧ (5 : BitVec 11).toNat < 6 ∧ 2039 < (2040 : BitVec 11).toNat) ∧
    (u.fstate ≠ .failed ∧ u.ctrl.getLsbD 1 = false ∧ u.rxlen.toNat = 2047 ∧ u.rxlen.toNat ≤ (2047 : BitVec 11).toNat) ∧
    v.fstate ≠ .failed ∧ v.ctrl.getLsbD 0 = true ∧ v.txlen = 0 ∧ 2041 < (2042 : BitVec 11).toNat :=
  ⟨keyed 0xA, { keyed 0 with rxlen := 2047 }, keyed 0xB, by decide⟩

theorem witness_RefusalChangesNothing : ∃ (i : Instr) (s t : State) (st : BitVec 8) (r : BitVec 32),
    exec i s = .next t ∧ t.response = some ⟨st, r⟩ ∧ 0x10 ≤ st.toNat :=
  ⟨.txdone, keyed 0xA, _, 0x14, 0, rfl, rfl, by decide⟩

theorem witness_OutcomesOfEachCommand : ∃ (i : Instr) (s t : State), exec i s = .next t := ⟨.txrd 5, keyed 0xA, _, rfl⟩

theorem witness_ReadCommandsChangeNothing : ∃ i : Instr, isReadCommand i := ⟨.rxrd 0, trivial⟩

theorem witness_FatalErrorsAndTheWayOut :
    (∃ (i : Instr) (s t : State) (r : BitVec 32), exec i s = .next t ∧ t.response = some ⟨0x01, r⟩) ∧
    ∃ (i : Instr) (s t : State), s.fstate = .failed ∧ i ≠ .reset ∧ exec i s = .next t :=
  ⟨⟨.linkdown, keyed 0xA, _, 1, rfl, rfl⟩, .status, failed, _, rfl, by decide, rfl⟩

theorem witness_KeyScheduleIsImmutable :
    (∃ (i : Instr) (s t : State), exec i s = .next t ∧ i ≠ .reset ∧ s.ksvalid = true) ∧
    ∃ (i : Instr) (s t : State), exec i s = .next t ∧ i ≠ .reset ∧ ∀ v, i ≠ .keygen v :=
  ⟨⟨.keygen 1, keyed 0xA, _, rfl, by decide, rfl⟩, .ctrlwr 3, State.reset, _, rfl, by decide, by simp⟩

theorem witness_SidesAreIndependent : ∃ (i j : Instr) (s t u : State),
    exec i s = .next t ∧ isSendCommand i ∧ exec j s = .next u ∧ isReceiveCommand j :=
  ⟨.txwr 6 1, .rxpush 1, keyed 0, _, _, rfl, trivial, rfl, trivial⟩

theorem witness_WaitingFrameIsLocked : ∃ (i : Instr) (s t : State),
    s.txlen ≠ 0 ∧ exec i s = .next t ∧ i ≠ .txdone ∧ i ≠ .reset :=
  ⟨.rxpush 1, { keyed 0 with txlen := 6 }, _, by decide, rfl, by decide, by decide⟩

theorem witness_CtrlChangesOnlyWhenIdle : ∃ (i : Instr) (s t : State),
    exec i s = .next t ∧ t.ctrl ≠ s.ctrl ∧ i ≠ .reset := ⟨.ctrlwr 2, State.reset, _, rfl, by decide, by decide⟩

theorem witness_FramerMoves :
    (∃ s t, exec (.rxpush 0) s = .next t ∧ s.ctrl.getLsbD 1 = true ∧ s.fstate = .awaitHeader ∧ t.fstate = .awaitBody) ∧
    (∃ s t, exec (.rxpush 0) s = .next t ∧ s.ctrl.getLsbD 1 = true ∧ s.fstate = .awaitBody ∧ t.fstate = .ready) ∧
    (∃ s t, exec .rxnext s = .next t ∧ s.ctrl.getLsbD 1 = true ∧ t.fstate ≠ s.fstate) ∧
    ∃ s t, exec .linkdown s = .next t ∧ s.ctrl.getLsbD 1 = true ∧ t.fstate ≠ s.fstate :=
  ⟨⟨holding (keyed 0xB) [7, 0, 0, 0, 0], _, rfl, by decide⟩,
    ⟨{ holding (keyed 0xB) [7, 0, 0, 0, 0, 0] with fstate := .awaitBody, need := 7, blen := 7 }, _, rfl, by decide⟩,
    ⟨{ keyed 0xA with fstate := .ready }, _, rfl, by decide⟩, ⟨keyed 0xA, _, rfl, by decide⟩⟩

theorem witness_HeaderDecodeForgetsEarlierFrames : ∃ s u : State, s ≠ u ∧ s.fstate ≠ .failed ∧ u.fstate ≠ .failed ∧
    s.ksvalid = true ∧ u.ksvalid = true ∧ s.ctrl.getLsbD 1 = false ∧ u.ctrl = s.ctrl ∧ 6 ≤ s.rxlen.toNat ∧ 6 ≤ u.rxlen.toNat ∧
    u.pt = s.pt ∧ ∀ a, a < 5 → u.rxbuf.read a = s.rxbuf.read a :=
  ⟨holding (keyed 0) [1, 2, 3, 4, 5, 6], { holding (keyed 0) [1, 2, 3, 4, 5, 9, 9] with tsalt := 7, ck := 3 }, by decide⟩

/-- A frame of six bytes whose checksum matches, whatever the substitution table is. -/
def acceptedFrame : State := { holding (keyed 0) [6, 0, 1, 0, 0, 9] with blen := 6, ck := 9 }

theorem witness_ChangedChecksumByteIsRejected : ∃ (s t : State) (m : Memory 8),
    exec .decbody s = .next t ∧ t.response = some ⟨0x00, 1⟩ ∧ s.rxbuf.wf ∧ m.wf ∧ (∀ a, a ≠ 5 → m.read a = s.rxbuf.read a) ∧
    m.read 5 ≠ s.rxbuf.read 5 :=
  ⟨acceptedFrame, _, acceptedFrame.rxbuf.write 5 8, rfl, by decide, by decide, by decide,
    fun _ h => Memory.read_write_ne _ h _, by decide⟩

/-- What the sender's frame is when it reaches the receiver. -/
def receiving (ctrl : BitVec 4) (size : BitVec 11) (r : Result) : State :=
  match r with
  | .next t => { keyed ctrl with rxbuf := t.txbuf, rxlen := size }
  | .fault _ => keyed ctrl
  | .refused _ => keyed ctrl

theorem witness_StreamCodecRoundTrip : ∃ (size c : BitVec 11) (tx sent rx : State), 6 ≤ size.toNat ∧ tx.fstate ≠ .failed ∧
    tx.ksvalid = true ∧ tx.txlen = 0 ∧ tx.txbuf.wf ∧ exec (.encrypt size c) tx = .next sent ∧ rx.fstate ≠ .failed ∧
    rx.ksvalid = true ∧ rx.ctrl.getLsbD 1 = false ∧ rx.rxbuf.wf ∧ rx.rxlen = size ∧ rx.pt = tx.pt ∧ rx.rxdir = tx.txdir ∧
    ∀ a, a < size.toNat → rx.rxbuf.read a = sent.txbuf.read a := by
  refine ⟨8, 6, { keyed 0 with txbuf := [(6, 1)] }, _, receiving 0 8 (exec (.encrypt 8 6) { keyed 0 with txbuf := [(6, 1)] }),
    by decide, by decide, rfl, rfl, by decide, rfl, by decide, rfl, rfl, ?_, rfl, rfl, rfl, fun a _ => rfl⟩
  exact Memory.wf_write (wf_encryptBytes _ _ _ _ _ _ _ (Memory.wf_write (Memory.wf_writeList (by decide) _ _) _ _)) _ _

theorem witness_AltCodecRoundTrip : ∃ (size : BitVec 11) (tx sent rx : State), 6 ≤ size.toNat ∧ tx.fstate ≠ .failed ∧
    tx.txlen = 0 ∧ tx.txbuf.wf ∧ exec (.aencrypt size) tx = .next sent ∧ rx.fstate ≠ .failed ∧ rx.ctrl.getLsbD 1 = false ∧
    rx.rxbuf.wf ∧ rx.rxlen = size ∧ ∀ a, a < size.toNat → rx.rxbuf.read a = sent.txbuf.read a := by
  refine ⟨9, { keyed 1 with txbuf := [(6, 1)] }, _, receiving 1 9 (exec (.aencrypt 9) { keyed 1 with txbuf := [(6, 1)] }),
    by decide, by decide, rfl, by decide, rfl, by decide, rfl, ?_, rfl, fun a _ => rfl⟩
  exact wf_xorBytes _ _ _ (wf_xorBytes _ _ _ (Memory.wf_writeList (by decide) _ _))

theorem witness_SentPayloadIsDelivered : ∃ (n c : BitVec 11) (tx sent rx : State), n.toNat ≤ 2039 ∧ tx.fstate ≠ .failed ∧
    tx.ctrl.getLsbD 0 = false ∧ tx.ksvalid = true ∧ tx.txlen = 0 ∧ tx.txbuf.wf ∧ exec (.txsend n c) tx = .next sent ∧
    rx.fstate = .awaitHeader ∧ rx.rxlen = 0 ∧ rx.ctrl.getLsbD 1 = true ∧ rx.ctrl.getLsbD 0 = false ∧ rx.ksvalid = true ∧
    rx.rxbuf.wf ∧ rx.pt = tx.pt ∧ rx.rxdir = tx.txdir :=
  ⟨1, 6, { keyed 2 with txbuf := [(6, 1)] }, _, { keyed 2 with cmd := 9 }, by decide, by decide, rfl, rfl, rfl, by decide, rfl,
    rfl, rfl, rfl, rfl, rfl, by decide, rfl, rfl⟩

/-- The invariants hold of a state that is not the reset state: a byte pushed in manual mode, and a word to come. -/
theorem invariant_example :
    Invariant { State.reset with ctrl := 0, rxlen := 1, rxbuf := [(0, 5)], txbuf := [(6, 1)], txlen := 6, pending := [0] } := by
  constructor
  · unfold MemoriesCanonical
    decide
  · unfold CellsExist WithinCells
    decide
  · decide
  · intro h
    exact absurd h (by decide)
  · intro _
    exact ⟨.inl rfl, rfl⟩
  · decide
  · decide
  · intro h
    exact absurd h (by decide)

theorem witness_InvariantKeptByEveryStep : ∃ s t : State, Invariant s ∧ step s = .next t := ⟨_, _, invariant_example, rfl⟩

theorem witness_EveryCommandCompletesUnderTheInvariant : ∃ s : State, Invariant s := ⟨_, invariant_example⟩

theorem witness_ReachableStatesAreSafe : ∃ s : State, s ≠ State.reset ∧ Reachable s :=
  ⟨_, by decide, .move (.start [0x1600000000000000]) rfl⟩

end Sys2Proof.Tests
end

section
/-! PROOFS. How one step goes on from what the host gives (spec/00_scope.md R19, spec/30_encoding.md R80). -/

namespace Sys2Proof.Machine

variable {s : State} {w : Command} {q : List Command}

/-! ## The host's next word -/

theorem fetch_of_pending_nil (h : s.pending = []) : fetch s = none := by
  simp only [fetch, h]

theorem fetch_of_pending_cons (h : s.pending = w :: q) : fetch s = some (w, s.withPending q) := by
  simp only [fetch, h]

/-! ## The answer to one word -/

theorem answerWord_of_decode_ok {i : Instr} (h : decode w = .ok i) : answerWord w s = exec i s := by
  simp only [answerWord, h]

/-! ## One step -/

theorem step_of_pending_nil (h : s.pending = []) : step s = .next s := by
  simp only [step, fetch_of_pending_nil h]

/-- The word is answered in the state that no longer holds it, whatever the word. -/
theorem step_of_pending_cons (h : s.pending = w :: q) : step s = answerWord w (s.withPending q) := by
  simp only [step, fetch_of_pending_cons h]

end Sys2Proof.Machine

namespace Sys2Proof.Proofs

open Sys2Proof.Machine

/-- Settles O4: a word taken from the host is answered in the state without it, and the answer to a word that decodes is
`exec` of its command. -/
theorem stepRunsTheDecodedCommand : Obligations.StepRunsTheDecodedCommand := by
  unfold Obligations.StepRunsTheDecodedCommand
  refine ⟨fun s w q i hpending hdecode => ?_, fun s hidle => step_of_pending_nil hidle⟩
  calc step s = answerWord w (s.withPending q) := step_of_pending_cons hpending
    _ = exec i (s.withPending q) := answerWord_of_decode_ok hdecode

end Sys2Proof.Proofs
end

section
/-! PROOFS. The invariants of spec/10_state.md R46 in two parts: what every update of the state keeps on its own (`Sound`), and
what `FSTATE`, `CTRL` and the lengths say of one another (`Framed`), which an `RXPUSH` breaks on its way and restores. -/

namespace Sys2Proof.Machine

open Sys2Proof.Safety

/-! ## The cells of a frame buffer -/

/-- A frame buffer in canonical form that lists no cell outside its 2047 (spec/20_memory.md R63, R66). -/
structure SoundBuffer (m : Memory 8) : Prop where
  wf : m.wf
  within : WithinCells m 2047

section
variable {m : Memory 8}

theorem soundBuffer_nil : SoundBuffer [] := ⟨Memory.wf_nil, by simp [WithinCells]⟩

/-- What the loops and the single writes share: canonical, and no entry but old ones and ones of a range of the buffer. -/
theorem SoundBuffer.of_mem {m' : Memory 8} {a n : Nat} (h : SoundBuffer m) (hn : a + n ≤ 2047) (hwf : m'.wf)
    (hmem : ∀ e ∈ m', (a ≤ e.1 ∧ e.1 < a + n) ∨ e ∈ m) : SoundBuffer m' := by
  refine ⟨hwf, fun e he => ?_⟩
  rcases hmem e he with hnew | hold
  · omega
  · exact h.within e hold

theorem SoundBuffer.write (h : SoundBuffer m) {a : Nat} (ha : a < 2047) (v : Byte) : SoundBuffer (m.write a v) :=
  h.of_mem (a := a) (n := 1) ha (Memory.wf_write h.wf a v) fun _ he =>
    (Memory.mem_write he).imp_left fun heq => by simp [heq]

theorem SoundBuffer.writeList (h : SoundBuffer m) {a : Nat} {vs : List Byte} (ha : a + vs.length ≤ 2047) :
    SoundBuffer (m.writeList a vs) :=
  h.of_mem ha (Memory.wf_writeList h.wf a vs) fun _ he => Memory.mem_writeList he

theorem SoundBuffer.xorBytes (h : SoundBuffer m) (x : Byte) {n i : Nat} (hn : i + n ≤ 2047) :
    SoundBuffer (xorBytes x n i m) :=
  h.of_mem hn (wf_xorBytes x n i h.wf) fun _ he => mem_xorBytes x n i he

theorem SoundBuffer.decryptBytes (h : SoundBuffer m) (p : Params) (pt : Memory 32) (r : BitVec 4) (t : BitVec 11)
    {n i : Nat} (ck : Byte) (hn : i + n ≤ 2047) : SoundBuffer (decryptBytes p pt r t n i m ck).1 :=
  h.of_mem hn (wf_decryptBytes p pt r t n i ck h.wf) fun _ he => mem_decryptBytes p pt r t n i ck he

theorem SoundBuffer.encryptBytes (h : SoundBuffer m) (p : Params) (pt : Memory 32) (r : BitVec 4) (t : BitVec 11)
    {n i : Nat} (ck : Byte) (hn : i + n ≤ 2047) : SoundBuffer (encryptBytes p pt r t n i m ck).1 :=
  h.of_mem hn (wf_encryptBytes p pt r t n i ck h.wf) fun _ he => mem_encryptBytes p pt r t n i ck he

end

/-! ## The two parts of the invariant -/

/-- What the tables satisfy with or without a key schedule: canonical, and no cell outside their spaces. -/
structure SoundTables (pt : Memory 32) (itab : Memory 16) (vsel : Memory 2) : Prop where
  canonical : pt.wf ∧ itab.wf ∧ vsel.wf
  within : WithinCells pt 32768 ∧ WithinCells itab 512 ∧ WithinCells vsel 17

/-- R46 (a), (d), (e), and the memories. -/
structure Sound (s : State) : Prop where
  tables : SoundTables s.pt s.itab s.vsel
  rxbuf : SoundBuffer s.rxbuf
  txbuf : SoundBuffer s.txbuf
  txlen : s.txlen = 0 ∨ 6 ≤ s.txlen.toNat
  failedIff : s.fstate = .failed ↔ s.err ≠ 0
  errRange : s.err.toNat ≤ 3
  keys : s.ksvalid = true → TablesAreOfSeed s

/-- R46 (b), (c). -/
structure Framed (s : State) : Prop where
  autoMode : s.auto = true → AutoFraming s
  manualMode : s.auto = false → ManualFraming s

variable {p : Params} {s t : State}

theorem invariant_iff : Invariant s ↔ Sound s ∧ Framed s := by
  constructor
  · rintro ⟨⟨hpt, hit, hvs, hrx, htx⟩, ⟨cpt, cit, cvs, crx, ctx⟩, htxlen, hauto, hmanual, hfailed, herr, hkeys⟩
    exact ⟨⟨⟨⟨hpt, hit, hvs⟩, cpt, cit, cvs⟩, ⟨hrx, crx⟩, ⟨htx, ctx⟩, htxlen, hfailed, herr, hkeys⟩, hauto, hmanual⟩
  · rintro ⟨⟨⟨⟨hpt, hit, hvs⟩, cpt, cit, cvs⟩, ⟨hrx, crx⟩, ⟨htx, ctx⟩, htxlen, hfailed, herr, hkeys⟩, hauto, hmanual⟩
    exact ⟨⟨hpt, hit, hvs, hrx, htx⟩, ⟨cpt, cit, cvs, crx, ctx⟩, htxlen, hauto, hmanual, hfailed, herr, hkeys⟩

/-! ## `Sound` is kept by every update of the state -/

theorem sound_reset : Sound State.reset where
  tables := ⟨⟨Memory.wf_nil, Memory.wf_nil, Memory.wf_nil⟩, by simp [WithinCells]⟩
  rxbuf := soundBuffer_nil
  txbuf := soundBuffer_nil
  txlen := .inl rfl
  failedIff := by simp
  errRange := by simp
  keys := by simp

theorem Sound.respond (h : Sound s) (st : BitVec 8) (r : BitVec 32) : Sound (s.respond st r) := { h with }

theorem Sound.withPending (h : Sound s) (q : List Command) : Sound (s.withPending q) := { h with }

theorem Sound.resetBlock (s : State) : Sound s.resetBlock := { sound_reset with }

theorem Sound.setCtrl (h : Sound s) (v : BitVec 4) : Sound (s.setCtrl v) := { h with }

theorem Sound.setCk (h : Sound s) (v : Byte) : Sound (s.setCk v) := { h with }

theorem Sound.setRxbuf (h : Sound s) {m : Memory 8} (hm : SoundBuffer m) : Sound (s.setRxbuf m) := { h with rxbuf := hm }

theorem Sound.setTxbuf (h : Sound s) {m : Memory 8} (hm : SoundBuffer m) : Sound (s.setTxbuf m) := { h with txbuf := hm }

theorem Sound.setTxlen (h : Sound s) {n : BitVec 11} (hn : n = 0 ∨ 6 ≤ n.toNat) : Sound (s.setTxlen n) :=
  { h with txlen := hn }

theorem Sound.loadHeader (h : Sound s) (bl c : BitVec 16) (ts : BitVec 11) (r : BitVec 4) (k : BitVec 3) (dl : BitVec 16)
    (ck : Byte) : Sound (s.loadHeader bl c ts r k dl ck) := { h with }

theorem Sound.pushByte (h : Sound s) (hl : s.rxlen.toNat < 2047) (b : Byte) : Sound (s.pushByte b) :=
  { h with rxbuf := h.rxbuf.write hl b }

theorem Sound.loadKeys (h : Sound s) {seed : Word} {k : KeyTables} (hk : ks Config.hardware seed = some k) :
    Sound (s.loadKeys seed k) :=
  have ⟨hpt, hit, hvs, hwithin⟩ := ks_tables hk
  { h with tables := ⟨⟨hpt, hit, hvs⟩, hwithin⟩, keys := fun _ => hk }

/-- A block that has not failed has no error, which is all that a change to another such state needs. -/
theorem Sound.not_failedIff (h : Sound s) (hf : s.fstate ≠ .failed) {f : FState} (hf' : f ≠ .failed) :
    f = .failed ↔ s.err ≠ 0 :=
  iff_of_false hf' (h.failedIff.not.1 hf)

theorem Sound.releaseFrame (h : Sound s) (hf : s.fstate ≠ .failed) : Sound s.releaseFrame :=
  { h with failedIff := h.not_failedIff hf (by simp) }

theorem Sound.awaitBody (h : Sound s) (hf : s.fstate ≠ .failed) (l : BitVec 16) : Sound (s.awaitBody l) :=
  { h with failedIff := h.not_failedIff hf (by simp) }

theorem Sound.becomeReady (h : Sound s) (hf : s.fstate ≠ .failed) : Sound s.becomeReady :=
  { h with failedIff := h.not_failedIff hf (by simp) }

/-- The fatal-error entry (R203) with a code of R32: an error that was there stays, and is not 0. -/
theorem Sound.enterFailed (h : Sound s) {e : BitVec 3} (he : e ≠ 0) (hle : e.toNat ≤ 3) : Sound (s.enterFailed e) :=
  have herr : (s.enterFailed e).err ≠ 0 ∧ (s.enterFailed e).err.toNat ≤ 3 := by
    rw [State.enterFailed_err]
    split
    · exact ⟨he, hle⟩
    · next hne => exact ⟨hne, h.errRange⟩
  { h with failedIff := iff_of_true rfl herr.1, errRange := herr.2 }

/-! ## `Sound` is kept by the procedures of the codecs -/

theorem Sound.dechdr (h : Sound s) (p : Params) : Sound (dechdr p s) :=
  (h.loadHeader ..).setRxbuf (h.rxbuf.writeList (by simp))

theorem Sound.decbody (h : Sound s) (p : Params) (hb : s.blen.toNat ≤ 2047) : Sound (decbody p s).1 :=
  (h.setRxbuf (h.rxbuf.decryptBytes p _ _ _ _ (by omega))).setCk _

theorem Sound.adechdr (h : Sound s) (p : Params) : Sound (adechdr p s) :=
  (h.loadHeader ..).setRxbuf (h.rxbuf.xorBytes p.altx (by simp))

theorem Sound.adecbody (h : Sound s) (p : Params) (hb : s.blen.toNat ≤ 2047) : Sound (adecbody p s) :=
  h.setRxbuf (h.rxbuf.xorBytes p.altx (by omega))

theorem Sound.runHeader (h : Sound s) (p : Params) : Sound (runHeader p s) := by
  unfold Machine.runHeader
  split
  · exact h.adechdr p
  · exact h.dechdr p

theorem Sound.runBody (h : Sound s) (p : Params) (hb : s.blen.toNat ≤ 2047) : Sound (runBody p s).1 := by
  unfold Machine.runBody
  split
  · exact h.adecbody p hb
  · exact h.decbody p hb

/-- An 11-bit length is never above 2047, so a frame that is buffered lies in the buffer. -/
theorem blen_le_of_bodyBuffered (hb : s.bodyBuffered = true) : s.blen.toNat ≤ 2047 := by
  have hbuffered : max 6 s.blen.toNat ≤ s.rxlen.toNat := of_decide_eq_true hb
  omega

theorem Sound.encryptFrame (h : Sound s) (p : Params) {size : BitVec 11} (hsize : 6 ≤ size.toNat) (c : BitVec 11) :
    Sound (encryptFrame p size c s) :=
  have hheader := (h.txbuf.writeList (a := 0) (vs := b5 (encodeHeader s.pt s.txdir
    (canon size c Config.encTsalt Config.encRsalt Config.encKval))) (by simp [b5])).write (a := 5) (by omega)
  (h.setTxbuf (((hheader _).encryptBytes p _ _ _ _ (by omega)).write (by omega) _)).setTxlen (.inr hsize)

theorem Sound.aencryptFrame (h : Sound s) (p : Params) {size : BitVec 11} (hsize : 6 ≤ size.toNat) :
    Sound (aencryptFrame p size s) :=
  have hlength := h.txbuf.writeList (a := 0) (vs := [lowByte (size.setWidth 16), highByte (size.setWidth 16)]) (by simp)
  (h.setTxbuf ((hlength.xorBytes p.altx (by omega)).xorBytes p.altx (by omega))).setTxlen (.inr hsize)

theorem Sound.plainFrame (h : Sound s) {n : BitVec 11} (hn : s.frameSize n ≤ 2047) (c : BitVec 11) :
    Sound (plainFrame n c s) :=
  h.setTxbuf ((h.txbuf.writeList (by simp)).writeList (by rwa [List.length_replicate]))

end Sys2Proof.Machine
end

section
/-! PROOFS. The invariants of spec/10_state.md R46 hold after every command. -/

namespace Sys2Proof.Machine

open Sys2Proof.Safety

variable {p : Params} {s t : State}

/-! ## `Framed` after a command that ends outside a frame -/

/-- A fatal error leaves nothing to say of the lengths but that `NEED` is 6 in manual mode. -/
theorem framed_of_failed (hf : s.fstate = .failed) (hn : s.auto = false → s.need = 6) : Framed s where
  autoMode _ := by simp [AutoFraming, hf]
  manualMode ha := ⟨.inr hf, hn ha⟩

/-- An empty receive side satisfies both modes, which is why `CTRL` may change there (R102) and `RXNEXT` ends there. -/
theorem framed_of_empty (hf : s.fstate = .awaitHeader) (hl : s.rxlen = 0) (hn : s.need = 6) : Framed s where
  autoMode _ := by simp [AutoFraming, hf, hl, hn]
  manualMode _ := ⟨.inl hf, hn⟩

/-- In manual mode `Framed` speaks of `FSTATE` and `NEED` alone, which the manual commands do not write. -/
theorem Framed.of_manual (h : Framed s) (ha : s.auto = false) (hctrl : t.ctrl = s.ctrl) (hfstate : t.fstate = s.fstate)
    (hneed : t.need = s.need) : Framed t := by
  have hauto : t.auto = false := by rwa [State.auto, hctrl]
  obtain ⟨hf, hn⟩ := h.manualMode ha
  exact ⟨fun ht => absurd ht (by simp [hauto]), fun _ => ⟨hfstate ▸ hf, hneed ▸ hn⟩⟩

theorem Framed.need_of_awaitHeader (h : Framed s) (hf : s.fstate = .awaitHeader) : s.need = 6 := by
  cases ha : s.auto with
  | true => exact ((h.autoMode ha).1 hf).2
  | false => exact (h.manualMode ha).2

theorem idle_iff : s.idle = true ↔ s.fstate = .awaitHeader ∧ s.rxlen = 0 ∧ s.txlen = 0 := by
  simp [State.idle, and_assoc]

/-! ## `Framed` is kept by the updates of what it does not speak of -/

theorem Framed.respond (h : Framed s) (st : BitVec 8) (r : BitVec 32) : Framed (s.respond st r) := { h with }

theorem Framed.withPending (h : Framed s) (q : List Command) : Framed (s.withPending q) := { h with }

theorem Framed.loadKeys (h : Framed s) (seed : Word) (k : KeyTables) : Framed (s.loadKeys seed k) := { h with }

theorem Framed.setTxbuf (h : Framed s) (m : Memory 8) : Framed (s.setTxbuf m) := { h with }

theorem Framed.setTxlen (h : Framed s) (n : BitVec 11) : Framed (s.setTxlen n) := { h with }

theorem Framed.encryptFrame (h : Framed s) (p : Params) (size c : BitVec 11) : Framed (encryptFrame p size c s) :=
  (h.setTxbuf _).setTxlen size

theorem Framed.aencryptFrame (h : Framed s) (p : Params) (size : BitVec 11) : Framed (aencryptFrame p size s) :=
  (h.setTxbuf _).setTxlen size

theorem Framed.plainFrame (h : Framed s) (n c : BitVec 11) : Framed (plainFrame n c s) := h.setTxbuf _

/-! ## `RXPUSH` in AUTO mode -/

/-- A header decode sets `DLEN` to `BLEN` less the padding (R156), or to `BLEN` (R191). -/
theorem runHeader_dlen_le (p : Params) (s : State) : (runHeader p s).dlen.toNat ≤ (runHeader p s).blen.toNat := by
  unfold runHeader
  split
  · simp [adechdr]
  · simp only [dechdr, State.setRxbuf_dlen, State.setRxbuf_blen, State.loadHeader_dlen, State.loadHeader_blen,
      BitVec.toNat_ofNat, BitVec.toNat_setWidth]
    omega

/-- `AwaitBody` before the body transition has looked at the lengths: `RXLEN` may have reached `NEED`. -/
structure BodyAwaited (s : State) : Prop where
  fstate : s.fstate = .awaitBody
  six_le : 6 ≤ s.rxlen.toNat
  rxlen_le : s.rxlen.toNat ≤ s.need.toNat
  need_le : s.need.toNat ≤ 2047
  need_eq : s.need = s.blen
  dlen_le : s.dlen.toNat ≤ s.blen.toNat

theorem BodyAwaited.framed (hb : BodyAwaited s) (ha : s.auto = true) (hlt : s.rxlen.toNat < s.need.toNat) : Framed s where
  autoMode _ := by simp [AutoFraming, hb.fstate, hb.six_le, hlt, hb.need_le, hb.need_eq ▸ hb.dlen_le, ← hb.need_eq]
  manualMode hm := absurd ha (by simp [hm])

/-- A body procedure writes none of the lengths, so a frame whose last byte has come is `Ready` as R46 (b) wants it. -/
theorem BodyAwaited.framed_ready (hb : BodyAwaited s) (ha : s.auto = true) (hdue : s.need.toNat ≤ s.rxlen.toNat)
    (p : Params) : Framed (runBody p s).1.becomeReady := by
  have hrxlen : s.rxlen.toNat = s.need.toNat := le_antisymm hb.rxlen_le hdue
  have hready : 6 ≤ s.need.toNat := hrxlen ▸ hb.six_le
  refine ⟨fun _ => ?_, fun hm => absurd ha (by simpa using hm)⟩
  simp [AutoFraming, hrxlen, hready, hb.need_le, hb.need_eq ▸ hb.dlen_le, ← hb.need_eq]

/-- The body transition (R172) leaves `AwaitBody` where `RXLEN` has reached `NEED`, and so restores `RXLEN < NEED` there. -/
theorem bodyTransition_invariant (hs : Sound s) (ha : s.auto = true) (hb : BodyAwaited s)
    (h : bodyTransition p s = .next t) : Invariant t := by
  have hf : s.fstate ≠ .failed := by simp [hb.fstate]
  rw [invariant_iff]
  rcases bodyTransition_cases h with ⟨hstays, rfl⟩ | ⟨⟨_, hdue⟩, hbuf, ⟨_, rfl⟩ | ⟨_, rfl⟩⟩
  · have hlt : s.rxlen.toNat < s.need.toNat := not_le.1 fun hle => hstays ⟨hb.fstate, hle⟩
    exact ⟨hs.respond .., (hb.framed ha hlt).respond ..⟩
  · have hbody := hs.runBody p (blen_le_of_bodyBuffered hbuf)
    exact ⟨(hbody.becomeReady (by simpa using hf)).respond .., (hb.framed_ready ha hdue p).respond ..⟩
  · have hbody := hs.runBody p (blen_le_of_bodyBuffered hbuf)
    exact ⟨(hbody.enterFailed (by decide) (by decide)).respond .., framed_of_failed rfl (by simp [ha])⟩

/-- The header transition (R171) waits for a body with the length it has read, or fails; a byte that was not the sixth leaves
the framer waiting. -/
theorem advance_invariant (hs : Sound s) (ha : s.auto = true)
    (hw : s.fstate = .awaitHeader ∧ s.rxlen.toNat ≤ 6 ∧ s.need = 6 ∨ BodyAwaited s) (h : advance p s = .next t) :
    Invariant t := by
  rcases advance_cases h with ⟨hno, hbody⟩ | ⟨⟨hf, h6⟩, ⟨_, rfl⟩ | ⟨hge, hle, hbody⟩⟩
  · rcases hw with ⟨hf, hl, hn⟩ | hb
    · have hlt : s.rxlen.toNat < 6 := not_le.1 fun hle => hno ⟨hf, hle⟩
      rcases bodyTransition_cases hbody with ⟨_, rfl⟩ | ⟨⟨hf', _⟩, _⟩
      · refine invariant_iff.2 ⟨hs.respond .., fun _ => ?_, fun hm => absurd ha (by simpa using hm)⟩
        simp [AutoFraming, hf, hlt, hn]
      · simp [hf] at hf'
    · exact bodyTransition_invariant hs ha hb hbody
  · exact invariant_iff.2 ⟨((hs.runHeader p).enterFailed (by decide) (by decide)).respond ..,
      framed_of_failed rfl (by simp [ha])⟩
  · have hl : s.rxlen.toNat = 6 := by
      rcases hw with ⟨_, hl, _⟩ | hb
      · omega
      · simp [hb.fstate] at hf
    refine bodyTransition_invariant ((hs.runHeader p).awaitBody (by simp [hf]) _) (by simpa using ha) ?_ hbody
    exact ⟨rfl, by simp [hl], by simpa [hl] using hge, hle, rfl, runHeader_dlen_le p s⟩

/-- What the framer's state and lengths are once the byte of an `RXPUSH` is stored (R170). -/
theorem Framed.pushByte (h : Framed s) (ha : s.auto = true) (hf : s.fstate ≠ .failed) (hr : s.fstate ≠ .ready)
    (hl : s.rxlen.toNat < 2047) (b : Byte) :
    (s.pushByte b).fstate = .awaitHeader ∧ (s.pushByte b).rxlen.toNat ≤ 6 ∧ (s.pushByte b).need = 6 ∨
      BodyAwaited (s.pushByte b) := by
  obtain ⟨hheader, hbody, _⟩ := h.autoMode ha
  have hlen : (s.pushByte b).rxlen.toNat = s.rxlen.toNat + 1 := by
    rw [State.pushByte_rxlen, BitVec.toNat_add_of_lt]
    · rfl
    · simpa using Nat.succ_lt_succ hl
  cases hs : s.fstate with
  | awaitHeader =>
    obtain ⟨hlt, hn⟩ := hheader hs
    exact .inl ⟨hs, by omega, hn⟩
  | awaitBody =>
    obtain ⟨h6, hlt, hle, heq, hd⟩ := hbody hs
    exact .inr ⟨hs, by omega, hlen ▸ hlt, hle, heq, hd⟩
  | ready => exact absurd hs hr
  | failed => exact absurd hs hf

/-! ## Every command keeps the invariants -/

theorem exec_preserves_invariant {i : Instr} (h : Invariant s) (hexec : exec i s = .next t) : Invariant t := by
  obtain ⟨hs, hfr⟩ := invariant_iff.1 h
  rw [invariant_iff]
  cases exec_cases hexec with
  | reset => exact ⟨(Sound.resetBlock s).respond .., framed_of_empty rfl rfl rfl⟩
  | ctrlwr v _ hf hidle =>
    obtain ⟨hf, hl, _⟩ := idle_iff.1 hidle
    exact ⟨(hs.setCtrl v).respond .., framed_of_empty hf hl (hfr.need_of_awaitHeader hf)⟩
  | keygen _ _ _ _ _ hk => exact ⟨(hs.loadKeys hk).respond .., (hfr.loadKeys ..).respond ..⟩
  | rxpushManual b _ _ ha hl => exact ⟨(hs.pushByte hl b).respond .., hfr.of_manual ha rfl rfl rfl⟩
  | rxpushAuto b _ _ hf ha _ hr hl hadv =>
    exact invariant_iff.1 (advance_invariant (hs.pushByte hl b) ha (hfr.pushByte ha hf hr hl b) hadv)
  | dechdr _ _ _ ha => exact ⟨(hs.dechdr _).respond .., hfr.of_manual ha rfl rfl rfl⟩
  | decbody _ _ _ ha hb =>
    exact ⟨(hs.decbody _ (blen_le_of_bodyBuffered hb)).respond .., hfr.of_manual ha rfl rfl rfl⟩
  | adechdr _ _ ha => exact ⟨(hs.adechdr _).respond .., hfr.of_manual ha rfl rfl rfl⟩
  | adecbody _ _ ha hb =>
    exact ⟨(hs.adecbody _ (blen_le_of_bodyBuffered hb)).respond .., hfr.of_manual ha rfl rfl rfl⟩
  | rxnext _ hf => exact ⟨(hs.releaseFrame hf).respond .., framed_of_empty rfl rfl rfl⟩
  | linkdown =>
    exact ⟨(hs.enterFailed (by decide) (by decide)).respond .., framed_of_failed rfl fun ha => (hfr.manualMode ha).2⟩
  | txwr a v _ _ _ hl => exact ⟨(hs.setTxbuf (hs.txbuf.write hl v)).respond .., (hfr.setTxbuf _).respond ..⟩
  | encrypt n c _ _ _ _ hl => exact ⟨(hs.encryptFrame _ hl c).respond .., (hfr.encryptFrame ..).respond ..⟩
  | aencrypt n _ _ _ hl => exact ⟨(hs.aencryptFrame _ hl).respond .., (hfr.aencryptFrame ..).respond ..⟩
  | txsendStream n c size _ _ hc _ _ hl =>
    have hsize : s.frameSize n ≤ 2047 := by
      rw [State.frameSize, padding_stream hc]
      omega
    exact ⟨((hs.plainFrame hsize c).encryptFrame _ (by omega) c).respond ..,
      ((hfr.plainFrame n c).encryptFrame ..).respond ..⟩
  | txsendAlt n c size _ _ hc _ hl =>
    have hsize : s.frameSize n ≤ 2047 := by
      rw [State.frameSize, padding_alt hc]
      omega
    exact ⟨((hs.plainFrame hsize c).aencryptFrame _ (by omega)).respond ..,
      ((hfr.plainFrame n c).aencryptFrame ..).respond ..⟩
  | txdone => exact ⟨((hs.setTxlen (.inl rfl)).setTxbuf soundBuffer_nil).respond ..,
      ((hfr.setTxlen 0).setTxbuf []).respond ..⟩
  -- Refusals and read commands write nothing but the response.
  | _ => exact ⟨hs.respond .., hfr.respond ..⟩

theorem respond_preserves_invariant (h : Invariant s) (st : BitVec 8) (r : BitVec 32) : Invariant (s.respond st r) :=
  have ⟨hs, hfr⟩ := invariant_iff.1 h
  invariant_iff.2 ⟨hs.respond st r, hfr.respond st r⟩

theorem withPending_preserves_invariant (h : Invariant s) (q : List Command) : Invariant (s.withPending q) :=
  have ⟨hs, hfr⟩ := invariant_iff.1 h
  invariant_iff.2 ⟨hs.withPending q, hfr.withPending q⟩

theorem invariant_reset : Invariant State.reset := invariant_iff.2 ⟨sound_reset, framed_of_empty rfl rfl rfl⟩

end Sys2Proof.Machine

namespace Sys2Proof.Proofs

open Sys2Proof.Machine Sys2Proof.Safety

/-- Settles O57: the invariants say nothing of the words the host has yet to give. -/
theorem invariantHoldsAtReset : Obligations.InvariantHoldsAtReset := by
  unfold Obligations.InvariantHoldsAtReset
  exact fun q => withPending_preserves_invariant invariant_reset q

/-- Settles O58: a step that answers a word either runs a command or refuses, in the state without the word. -/
theorem invariantKeptByEveryStep : Obligations.InvariantKeptByEveryStep := by
  unfold Obligations.InvariantKeptByEveryStep
  intro s t h hstep
  rcases step_cases hstep with ⟨_, rfl⟩ | ⟨w, q, _, ⟨i, _, hexec⟩ | ⟨e, _, rfl⟩⟩
  · exact h
  · exact exec_preserves_invariant (withPending_preserves_invariant h q) hexec
  · exact respond_preserves_invariant (withPending_preserves_invariant h q) _ 0

end Sys2Proof.Proofs
end

section
/-! PROOFS. What single registers of spec/10_state.md do: the view `STATUS` (R34), the reset values (R47), and which commands
write the key schedule (R21, R22, R37 to R39) and `CTRL` (R33, R46 (f)). -/

namespace Sys2Proof.Machine

variable {p : Params} {s t : State}

/-! ## The bits of the view `STATUS` (R34) -/

/-- Each item of the view from its own lowest bit on; it is 0 from its width on, so the places do not overlap. -/
theorem statusWord_getLsbD (s : State) {i : Nat} (hi : i < 32) :
    s.statusWord.getLsbD i =
      (s.fstate.code.getLsbD i || decide (2 ≤ i) && (BitVec.ofBool s.ksvalid).getLsbD (i - 2) ||
        decide (4 ≤ i) && s.err.getLsbD (i - 4) || decide (8 ≤ i) && s.rxlen.getLsbD (i - 8) ||
        decide (20 ≤ i) && s.txlen.getLsbD (i - 20)) := by
  have hshift (n : Nat) : i - n < 32 := by omega
  simp only [State.statusWord, BitVec.getLsbD_or, BitVec.getLsbD_shiftLeft, BitVec.getLsbD_setWidth, hi, hshift,
    decide_true, Bool.true_and, ← decide_not, Nat.not_lt]

theorem statusWord_items (s : State) :
    s.statusWord.extractLsb' 0 2 = s.fstate.code ∧ s.statusWord.extractLsb' 4 3 = s.err ∧
      s.statusWord.extractLsb' 8 11 = s.rxlen ∧ s.statusWord.extractLsb' 20 11 = s.txlen := by
  refine ⟨?_, ?_, ?_, ?_⟩
  all_goals
    ext j hj
    simp (disch := omega) only [BitVec.getElem_extractLsb', statusWord_getLsbD, BitVec.getLsbD_of_ge, decide_eq_false,
      decide_eq_true]
    simp [hj]

theorem statusWord_ksvalid (s : State) : s.statusWord.getLsbD 2 = s.ksvalid := by
  simp (disch := omega) only [statusWord_getLsbD, BitVec.getLsbD_of_ge]
  simp

theorem statusWord_zeros (s : State) : s.statusWord.getLsbD 3 = false ∧ s.statusWord.getLsbD 7 = false ∧
    s.statusWord.getLsbD 19 = false ∧ s.statusWord.getLsbD 31 = false := by
  simp (disch := omega) only [statusWord_getLsbD, BitVec.getLsbD_of_ge]
  simp

/-! ## The state after `RESET` (R101) -/

theorem exec_reset (s : State) : exec .reset s = .next (s.resetBlock.respond stOk 0) := rfl

/-! ## What the framer's receive side never writes -/

/-- The seed and the tables are in `t` what they were in `s`. -/
structure SameKeys (s t : State) : Prop where
  seed : t.seed = s.seed
  ksvalid : t.ksvalid = s.ksvalid
  pt : t.pt = s.pt
  itab : t.itab = s.itab
  vsel : t.vsel = s.vsel

/-- The key schedule, `CTRL` and the send side are in `t` what they were in `s`. -/
structure SameOutsideReceive (s t : State) : Prop extends SameKeys s t where
  ctrl : t.ctrl = s.ctrl
  txlen : t.txlen = s.txlen
  txbuf : t.txbuf = s.txbuf

theorem SameOutsideReceive.trans {u : State} (h : SameOutsideReceive s t) (h' : SameOutsideReceive t u) :
    SameOutsideReceive s u where
  seed := h'.seed.trans h.seed
  ksvalid := h'.ksvalid.trans h.ksvalid
  pt := h'.pt.trans h.pt
  itab := h'.itab.trans h.itab
  vsel := h'.vsel.trans h.vsel
  ctrl := h'.ctrl.trans h.ctrl
  txlen := h'.txlen.trans h.txlen
  txbuf := h'.txbuf.trans h.txbuf

theorem bodyTransition_frame (h : bodyTransition p s = .next t) : SameOutsideReceive s t := by
  rcases bodyTransition_cases h with ⟨_, rfl⟩ | ⟨_, _, ⟨_, rfl⟩ | ⟨_, rfl⟩⟩
  all_goals exact ⟨by constructor <;> simp, by simp, by simp, by simp⟩

theorem advance_frame (h : advance p s = .next t) : SameOutsideReceive s t := by
  rcases advance_cases h with ⟨_, hbody⟩ | ⟨_, ⟨_, rfl⟩ | ⟨_, _, hbody⟩⟩
  · exact bodyTransition_frame hbody
  · exact ⟨by constructor <;> simp, by simp, by simp, by simp⟩
  · have hheader : SameOutsideReceive s ((runHeader p s).awaitBody (runHeader p s).blen) :=
      ⟨by constructor <;> simp, by simp, by simp, by simp⟩
    exact hheader.trans (bodyTransition_frame hbody)

/-- `RXPUSH` in AUTO mode stores its byte and then runs `advance()` (R170). -/
theorem advance_pushByte_frame {b : Byte} (h : advance p (s.pushByte b) = .next t) : SameOutsideReceive s t := by
  have hpush : SameOutsideReceive s (s.pushByte b) := ⟨by constructor <;> simp, by simp, by simp, by simp⟩
  exact hpush.trans (advance_frame h)

/-! ## Who writes the key schedule and `CTRL` -/

/-- Only `RESET`, and a `KEYGEN` without a key schedule, write it (R128). -/
theorem exec_sameKeys {i : Instr} (h : exec i s = .next t) :
    SameKeys s t ∨ i = .reset ∨ (s.ksvalid = false ∧ ∃ v, i = .keygen v) := by
  cases exec_cases h with
  | reset => exact .inr (.inl rfl)
  | keygen v _ _ _ hk => exact .inr (.inr ⟨hk, v, rfl⟩)
  | rxpushAuto b _ _ _ _ _ _ _ hadv => exact .inl (advance_pushByte_frame hadv).toSameKeys
  -- Every other effect is a chain of updates of other fields.
  | _ => exact .inl (by constructor <;> simp)

/-- Only `RESET`, and `CTRLWR` on an idle block, write `CTRL` (R102). -/
theorem exec_ctrl {i : Instr} (h : exec i s = .next t) :
    t.ctrl = s.ctrl ∨ i = .reset ∨ (s.idle = true ∧ i = .ctrlwr t.ctrl) := by
  cases exec_cases h with
  | reset => exact .inr (.inl rfl)
  | ctrlwr v _ _ hidle => exact .inr (.inr ⟨hidle, rfl⟩)
  | rxpushAuto b _ _ _ _ _ _ _ hadv => exact .inl (advance_pushByte_frame hadv).ctrl
  -- Every other effect is a chain of updates of other fields.
  | _ => exact .inl (by simp)

end Sys2Proof.Machine

namespace Sys2Proof.Proofs

open Sys2Proof.Machine

/-- Settles O16: every state after `RESET` is the reset state but for the host's side. -/
theorem resetLeavesTheResetValues : Obligations.ResetLeavesTheResetValues := by
  unfold Obligations.ResetLeavesTheResetValues
  refine ⟨fun t ht => ?_, fun s => ⟨_, exec_reset s, ?_⟩⟩
  · rcases ht with rfl | ⟨s, hreset⟩
    · simp
    · obtain rfl : s.resetBlock.respond stOk 0 = t := by simpa only [exec_reset, Host.Outcome.next.injEq] using hreset
      simp
  · simp [stOk]

/-- Settles O18: the view, item by item. -/
theorem statusWordLayout : Obligations.StatusWordLayout := by
  unfold Obligations.StatusWordLayout
  intro s
  obtain ⟨hfstate, herr, hrxlen, htxlen⟩ := statusWord_items s
  obtain ⟨h3, h7, h19, h31⟩ := statusWord_zeros s
  refine ⟨s.statusWord, rfl, ?_, statusWord_ksvalid s, h3, herr, h7, hrxlen, h19, htxlen, h31⟩
  rw [hfstate]
  cases s.fstate <;> rfl

/-- Settles O47: the two commands that write the key schedule are the two the premises exclude. -/
theorem keyScheduleIsImmutable : Obligations.KeyScheduleIsImmutable := by
  unfold Obligations.KeyScheduleIsImmutable
  intro i s t hexec hreset hkeygen
  rcases exec_sameKeys hexec with hsame | hi | ⟨hno, v, hi⟩
  · exact ⟨hsame.seed, hsame.ksvalid, hsame.pt, hsame.itab, hsame.vsel⟩
  · exact absurd hi hreset
  · rcases hkeygen with hyes | hne
    · simp [hno] at hyes
    · exact absurd hi (hne v)

/-- Settles O50: of the commands that write `CTRL`, the one that is not `RESET` asks for an idle block. -/
theorem ctrlChangesOnlyWhenIdle : Obligations.CtrlChangesOnlyWhenIdle := by
  unfold Obligations.CtrlChangesOnlyWhenIdle
  intro i s t hexec hne hreset
  rcases exec_ctrl hexec with hsame | hi | ⟨hidle, hi⟩
  · exact absurd hsame hne
  · exact absurd hi hreset
  · exact ⟨⟨t.ctrl, hi, rfl⟩, idle_iff.1 hidle⟩

end Sys2Proof.Proofs
end

section
/-! PROOFS. What commands leave unchanged (spec/20_memory.md): the read commands (R64), the two sides of the block (R74), a
frame that waits to be read out (R72), and what a header decode looks at (R71). -/

namespace Sys2Proof.Machine

variable {s t u : State}

/-! ## Read commands (R64) -/

/-- A command's end that changes nothing but the response. -/
def AnswersOnly (s : State) (o : Result) : Prop := ∃ st r, o = .next (s.respond st r)

theorem answersOnly_complete (s : State) (r : BitVec 32) : AnswersOnly s (complete s r) := ⟨stOk, r, rfl⟩

theorem answersOnly_refuse (s : State) (c : BitVec 8) : AnswersOnly s (refuse s c) := ⟨c, 0, rfl⟩

theorem AnswersOnly.ite {c : Prop} [Decidable c] {o o' : Result} (h : AnswersOnly s o) (h' : AnswersOnly s o') :
    AnswersOnly s (if c then o else o') := by
  split
  · exact h
  · exact h'

/-- Each read command is a chain of refusals that ends in reading one value. -/
theorem exec_read_answersOnly {i : Instr} (hi : isReadCommand i) (s : State) : AnswersOnly s (exec i s) := by
  have hrefuse := answersOnly_refuse s
  have hcomplete := answersOnly_complete s
  cases i with
  | ctrlrd => exact hcomplete _
  | status => exact hcomplete _
  | hdrrd k => exact hcomplete _
  | getseed => exact (hrefuse _).ite ((hcomplete _).ite ((hrefuse _).ite (hcomplete _)))
  | ptrd a => exact (hrefuse _).ite ((hrefuse _).ite (hcomplete _))
  | itrd a => exact (hrefuse _).ite ((hrefuse _).ite (hcomplete _))
  | vsrd a => exact (hrefuse _).ite ((hrefuse _).ite ((hrefuse _).ite (hcomplete _)))
  | rxrd a => exact (hrefuse _).ite ((hrefuse _).ite (hcomplete _))
  | txrd a => exact (hrefuse _).ite ((hrefuse _).ite (hcomplete _))
  | rxpkt => exact (hrefuse _).ite ((hrefuse _).ite (hcomplete _))
  | _ => exact False.elim hi

/-- A read command looks at no earlier answer, and its own takes that answer's place. -/
theorem exec_read_respond {i : Instr} (hi : isReadCommand i) (s : State) (st : BitVec 8) (r : BitVec 32) :
    exec i (s.respond st r) = exec i s := by
  cases i with
  | ctrlrd | status | hdrrd | getseed | ptrd | itrd | vsrd | rxrd | txrd | rxpkt => rfl
  | _ => exact False.elim hi

/-! ## The two sides of the block (R74) and the waiting frame (R72) -/

/-- `t` is `s` but for `TXBUF`, `TXLEN` and the response. -/
def SameButSendSide (s t : State) : Prop := ∃ m n o, t = { s with txbuf := m, txlen := n, response := o }

theorem SameButSendSide.refl (s : State) : SameButSendSide s s := ⟨s.txbuf, s.txlen, s.response, rfl⟩

theorem SameButSendSide.respond (h : SameButSendSide s t) (st : BitVec 8) (r : BitVec 32) :
    SameButSendSide s (t.respond st r) := by
  obtain ⟨m, n, _, rfl⟩ := h
  exact ⟨m, n, some ⟨st, r⟩, rfl⟩

theorem SameButSendSide.setTxbuf (h : SameButSendSide s t) (m : Memory 8) : SameButSendSide s (t.setTxbuf m) := by
  obtain ⟨_, n, o, rfl⟩ := h
  exact ⟨m, n, o, rfl⟩

theorem SameButSendSide.setTxlen (h : SameButSendSide s t) (n : BitVec 11) : SameButSendSide s (t.setTxlen n) := by
  obtain ⟨m, _, o, rfl⟩ := h
  exact ⟨m, n, o, rfl⟩

theorem SameButSendSide.encryptFrame (h : SameButSendSide s t) (p : Params) (size c : BitVec 11) :
    SameButSendSide s (encryptFrame p size c t) := (h.setTxbuf _).setTxlen size

theorem SameButSendSide.aencryptFrame (h : SameButSendSide s t) (p : Params) (size : BitVec 11) :
    SameButSendSide s (aencryptFrame p size t) := (h.setTxbuf _).setTxlen size

theorem SameButSendSide.plainFrame (h : SameButSendSide s t) (n c : BitVec 11) : SameButSendSide s (plainFrame n c t) :=
  h.setTxbuf _

/-- Each send command is a chain of updates of `TXBUF` and `TXLEN`. -/
theorem exec_send_frame {i : Instr} (hi : isSendCommand i) (h : exec i s = .next t) : SameButSendSide s t := by
  have hs := SameButSendSide.refl s
  cases exec_cases h with
  | refused | txrd => exact hs.respond ..
  | txwr a v => exact (hs.setTxbuf _).respond ..
  | encrypt n c => exact (hs.encryptFrame _ n c).respond ..
  | aencrypt n => exact (hs.aencryptFrame _ n).respond ..
  | txsendStream n c size => exact ((hs.plainFrame n c).encryptFrame _ size c).respond ..
  | txsendAlt n c size => exact ((hs.plainFrame n c).aencryptFrame _ size).respond ..
  | txdone => exact ((hs.setTxlen 0).setTxbuf []).respond ..
  | _ => exact False.elim hi

/-- A receive command writes neither the key schedule nor `CTRL` nor the send side. -/
theorem exec_receive_frame {i : Instr} (hi : isReceiveCommand i) (h : exec i s = .next t) : SameOutsideReceive s t := by
  cases exec_cases h with
  | rxpushAuto b _ _ _ _ _ _ _ hadv => exact advance_pushByte_frame hadv
  | refused | rxpushManual | rxrd | dechdr | decbody | adechdr | adecbody | rxpkt | rxnext | linkdown =>
    exact ⟨by constructor <;> simp, by simp, by simp, by simp⟩
  | _ => exact False.elim hi

/-- Only `RESET`, `TXDONE`, and commands that find no frame waiting, write the send side (R182). -/
theorem exec_sendSide {i : Instr} (h : exec i s = .next t) :
    (t.txbuf = s.txbuf ∧ t.txlen = s.txlen) ∨ i = .reset ∨ i = .txdone ∨ s.txlen = 0 := by
  cases exec_cases h with
  | reset => exact .inr (.inl rfl)
  | txdone => exact .inr (.inr (.inl rfl))
  | txwr _ _ _ _ ht => exact .inr (.inr (.inr ht))
  | encrypt _ _ _ _ _ ht => exact .inr (.inr (.inr ht))
  | aencrypt _ _ _ ht => exact .inr (.inr (.inr ht))
  | txsendStream _ _ _ _ _ _ _ ht => exact .inr (.inr (.inr ht))
  | txsendAlt _ _ _ _ _ _ ht => exact .inr (.inr (.inr ht))
  | rxpushAuto b _ _ _ _ _ _ _ hadv =>
    have hframe := advance_pushByte_frame hadv
    exact .inl ⟨hframe.txbuf, hframe.txlen⟩
  -- Every other effect is a chain of updates of other fields.
  | _ => exact .inl ⟨by simp, by simp⟩

/-! ## What a header decode looks at (R71, R156) -/

/-- `DECHDR` where every check of its rule passes. -/
theorem exec_dechdr (hf : s.fstate ≠ .failed) (hk : s.ksvalid = true) (ha : s.auto = false) (hl : 6 ≤ s.rxlen.toNat) :
    exec .dechdr s =
      .next ((dechdr Config.hardware s).respond stOk ((dechdr Config.hardware s).blen.setWidth 32)) := by
  show dechdrCommand Config.hardware s = _
  simp [dechdrCommand, hf, hk, ha, Nat.not_lt.2 hl, complete]

/-- The header registers after a decode are those of the canonical header it received. -/
theorem dechdr_eq_withHeader (s : State) :
    ∃ m, dechdr Config.hardware s = { withHeader s (receivedHeader s) with rxbuf := m } :=
  ⟨_, rfl⟩

theorem receivedHeader_congr (hctrl : u.ctrl = s.ctrl) (hpt : u.pt = s.pt)
    (hbytes : ∀ a, a < 5 → u.rxbuf.read a = s.rxbuf.read a) : receivedHeader u = receivedHeader s := by
  have hdir : u.rxdir = s.rxdir := by simp only [State.rxdir, hctrl]
  simp only [receivedHeader, hpt, hdir, hbytes _ (by decide : 0 < 5), hbytes _ (by decide : 1 < 5),
    hbytes _ (by decide : 2 < 5), hbytes _ (by decide : 3 < 5), hbytes _ (by decide : 4 < 5)]

end Sys2Proof.Machine

namespace Sys2Proof.Proofs

open Sys2Proof.Machine

/-- Settles O45: asked again, a read command meets the state it met before but for an answer it does not look at. -/
theorem readCommandsChangeNothing : Obligations.ReadCommandsChangeNothing := by
  unfold Obligations.ReadCommandsChangeNothing
  intro i s hi
  obtain ⟨st, r, hexec⟩ := exec_read_answersOnly hi s
  exact ⟨st, r, hexec, (exec_read_respond hi s st r).trans hexec⟩

/-- Settles O48: the frame of each side's commands. -/
theorem sidesAreIndependent : Obligations.SidesAreIndependent := by
  unfold Obligations.SidesAreIndependent
  intro i s t hexec
  refine ⟨fun hi => ?_, fun hi => ?_⟩
  · obtain ⟨m, n, o, rfl⟩ := exec_send_frame hi hexec
    rfl
  · have hframe := exec_receive_frame hi hexec
    exact ⟨hframe.txbuf, hframe.txlen, hframe.ctrl⟩

/-- Settles O49: a command that writes the send side is one the premises exclude, or checks that no frame waits. -/
theorem waitingFrameIsLocked : Obligations.WaitingFrameIsLocked := by
  unfold Obligations.WaitingFrameIsLocked
  intro i s t hwaits hexec hdone hreset
  rcases exec_sendSide hexec with hsame | hi | hi | hempty
  · exact hsame
  · exact absurd hi hreset
  · exact absurd hi hdone
  · exact absurd hempty hwaits

/-- Settles O52: both states decode the same canonical header, and the header registers are a function of it. -/
theorem headerDecodeForgetsEarlierFrames : Obligations.HeaderDecodeForgetsEarlierFrames := by
  unfold Obligations.HeaderDecodeForgetsEarlierFrames
  intro s u hfs hfu hks hku hmanual hctrl hls hlu hpt hbytes
  have hmanual' : u.auto = false := by rw [State.auto, hctrl, hmanual]
  refine ⟨_, _, exec_dechdr hfs hks hmanual hls, exec_dechdr hfu hku hmanual' hlu, ?_⟩
  obtain ⟨ms, hs⟩ := dechdr_eq_withHeader s
  obtain ⟨mu, hu⟩ := dechdr_eq_withHeader u
  rw [hs, hu, receivedHeader_congr hctrl hpt hbytes]
  exact ⟨rfl, rfl, rfl, rfl, rfl, rfl, rfl, rfl⟩

end Sys2Proof.Proofs
end

section
/-! PROOFS. The decoder, the encoder and the match and mask table of spec/opcode_table.json, tied to one another row by row:
each of the three says the same columns of R84 (spec/30_encoding.md R81 to R87). -/

namespace Sys2Proof

/-! ## The rows of R84 by their columns -/

/-- A row of R84: its operation code, and how many low bits of each field it uses. -/
structure FieldRow where
  op : BitVec 8
  a : Nat
  b : Nat
  d : Nat

/-- The 26 rows of R84. The decoder's lines have them (`FieldRow.decode_eq`), and so has the match and mask table
(`opcodeTable_eq`). -/
def fieldRows : List FieldRow :=
  [⟨0x00, 0, 0, 0⟩, ⟨0x01, 0, 0, 0⟩, ⟨0x02, 0, 0, 4⟩, ⟨0x03, 0, 0, 0⟩, ⟨0x04, 0, 0, 0⟩, ⟨0x05, 0, 0, 32⟩,
   ⟨0x06, 0, 0, 0⟩, ⟨0x07, 0, 0, 15⟩, ⟨0x08, 0, 0, 9⟩, ⟨0x09, 0, 0, 5⟩, ⟨0x0A, 3, 0, 0⟩,
   ⟨0x10, 0, 0, 8⟩, ⟨0x11, 11, 0, 0⟩, ⟨0x12, 0, 0, 0⟩, ⟨0x13, 0, 0, 0⟩, ⟨0x14, 0, 0, 0⟩, ⟨0x15, 0, 0, 0⟩,
   ⟨0x16, 0, 0, 0⟩, ⟨0x17, 0, 0, 0⟩, ⟨0x18, 0, 0, 0⟩,
   ⟨0x20, 11, 0, 8⟩, ⟨0x21, 11, 0, 0⟩, ⟨0x22, 11, 11, 0⟩, ⟨0x23, 11, 0, 0⟩, ⟨0x24, 11, 11, 0⟩, ⟨0x25, 0, 0, 0⟩]

/-- No bit of the word outside the bits the row uses is set (R83). -/
def FieldRow.Fits (r : FieldRow) (w : Command) : Prop :=
  fitsIn (aField w) r.a = true ∧ fitsIn (bField w) r.b = true ∧ fitsIn (dField w) r.d = true

/-- The row as spec/opcode_table.json writes it: `OP` and every unused bit must match. -/
def FieldRow.tableRow (r : FieldRow) : TableRow :=
  ⟨commandWord r.op 0 0 0,
    commandWord (BitVec.allOnes 8) (BitVec.allOnes 12 <<< r.a) (BitVec.allOnes 12 <<< r.b) (BitVec.allOnes 32 <<< r.d)⟩

variable {w v : Command} {r : FieldRow} {i : Instr}

/-! ## The fields of a word -/

/-- The 26 values of `OP` are asked of the word shifted, the decoder asks them of the field. -/
theorem toNat_ushiftRight_eq_opField (w : Command) : (w >>> 56).toNat = (opField w).toNat := by
  simp only [opField, BitVec.extractLsb'_toNat, BitVec.toNat_ushiftRight]
  omega

/-- Two words are the same when their fields are. -/
theorem eq_iff_fields :
    w = v ↔ opField w = opField v ∧ aField w = aField v ∧ bField w = bField v ∧ dField w = dField v := by
  refine ⟨fun h => h ▸ ⟨rfl, rfl, rfl, rfl⟩, fun ⟨hop, ha, hb, hd⟩ => ?_⟩
  rw [← commandWord_fields w, ← commandWord_fields v, hop, ha, hb, hd]

theorem opField_and (w v : Command) : opField (w &&& v) = opField w &&& opField v := BitVec.extractLsb'_and
theorem aField_and (w v : Command) : aField (w &&& v) = aField w &&& aField v := BitVec.extractLsb'_and
theorem bField_and (w v : Command) : bField (w &&& v) = bField w &&& bField v := BitVec.extractLsb'_and
theorem dField_and (w v : Command) : dField (w &&& v) = dField w &&& dField v := BitVec.extractLsb'_and

/-- A mask of the bits from `k` on finds nothing exactly when the field fits `k` bits. -/
theorem and_allOnes_shiftLeft_eq_zero_iff {n : Nat} (x : BitVec n) (k : Nat) :
    x &&& BitVec.allOnes n <<< k = 0#n ↔ fitsIn x k = true := by
  rw [← BitVec.shiftLeft_ushiftRight, fitsIn, beq_iff_eq]
  refine ⟨fun h => BitVec.eq_of_getLsbD_eq fun j _ => ?_, fun h => by rw [h]; simp⟩
  have hbit := congrArg (·.getLsbD (k + j)) h
  by_cases hjk : k + j < n
  · simpa [hjk] using hbit
  · simp [BitVec.getLsbD_of_ge x (k + j) (by omega)]

/-- A word whose fields fit a row is put together from the row's operation code and the operands cut out of its fields. -/
theorem FieldRow.Fits.commandWord_eq (h : r.Fits w) (hop : opField w = r.op) :
    commandWord r.op (((aField w).setWidth r.a).setWidth 12) (((bField w).setWidth r.b).setWidth 12)
      (((dField w).setWidth r.d).setWidth 32) = w := by
  obtain ⟨ha, hb, hd⟩ := h
  rw [setWidth_setWidth_of_fitsIn ha, setWidth_setWidth_of_fitsIn hb, setWidth_setWidth_of_fitsIn hd, ← hop,
    commandWord_fields]

/-! ## The table of match and mask numbers -/

/-- The 52 numbers of spec/opcode_table.json are what the columns of R84 make them. -/
theorem opcodeTable_eq : opcodeTable = fieldRows.map FieldRow.tableRow := by decide

/-- A row of the table admits the words with its operation code whose other bits fit (R84). -/
theorem FieldRow.admits_tableRow : r.tableRow.admits w = true ↔ opField w = r.op ∧ r.Fits w := by
  rw [TableRow.admits, FieldRow.tableRow, beq_iff_eq, eq_iff_fields]
  simp only [opField_and, aField_and, bField_and, dField_and, opField_commandWord, aField_commandWord, bField_commandWord,
    dField_commandWord, BitVec.and_allOnes, and_allOnes_shiftLeft_eq_zero_iff, FieldRow.Fits, BitVec.ofNat_eq_ofNat]

theorem wellFormed_iff : w.wellFormed = true ↔ ∃ r ∈ fieldRows, opField w = r.op ∧ r.Fits w := by
  simp [Command.wellFormed, opcodeTable_eq, FieldRow.admits_tableRow]

/-! ## The decoder -/

/-- The decoder at a word with a row's operation code: it accepts what fits the row, as a command whose word is then the
word itself. One case for each row. -/
theorem FieldRow.decode_eq (hr : r ∈ fieldRows) (hop : opField w = r.op) :
    ∃ i, decode w = acceptIf w r.a r.b r.d i ∧ (r.Fits w → encode i = w) := by
  suffices ∃ i, decode w = acceptIf w r.a r.b r.d i ∧ encode i =
      commandWord r.op (((aField w).setWidth r.a).setWidth 12) (((bField w).setWidth r.b).setWidth 12)
        (((dField w).setWidth r.d).setWidth 32) by
    obtain ⟨i, hi, hw⟩ := this
    exact ⟨i, hi, fun hfits => hw.trans (hfits.commandWord_eq hop)⟩
  fin_cases hr
  all_goals exact ⟨_, by rw [decode, hop]; rfl, by simp [encode, BitVec.of_length_zero]⟩

/-- The decoder at an operation code of no row (R85, verdict 1). -/
theorem decode_of_undefined (h : (opField w).toNat ∉ definedOpcodes) : decode w = .error .illegal := by
  unfold decode
  split
  case h_27 => rfl
  all_goals
    next hop =>
      rw [hop] at h
      exact absurd (by decide) h

/-- The 26 values of `OP` are those of the rows. -/
theorem mem_definedOpcodes_iff : (opField w).toNat ∈ definedOpcodes ↔ ∃ r ∈ fieldRows, opField w = r.op := by
  rw [show definedOpcodes = fieldRows.map (·.op.toNat) from rfl]
  simp only [List.mem_map, BitVec.toNat_inj, eq_comm]

/-- An accepted word is the word of its command: the row it is accepted by leaves no bit of it unread. -/
theorem encode_of_decode_ok (h : decode w = .ok i) : encode i = w := by
  by_cases hop : (opField w).toNat ∈ definedOpcodes
  · obtain ⟨r, hr, hop⟩ := mem_definedOpcodes_iff.1 hop
    obtain ⟨j, hj, hword⟩ := FieldRow.decode_eq hr hop
    obtain ⟨hfits, rfl⟩ := acceptIf_ok.1 (hj.symm.trans h)
    exact hword hfits
  · simp [decode_of_undefined hop] at h

/-- Verdict 2 of R85: a defined operation code, in a word of no row of the table. -/
theorem decode_of_not_wellFormed (hop : (opField w).toNat ∈ definedOpcodes) (hw : w.wellFormed = false) :
    decode w = .error .reserved := by
  obtain ⟨r, hr, hop⟩ := mem_definedOpcodes_iff.1 hop
  obtain ⟨i, hi, -⟩ := FieldRow.decode_eq hr hop
  have hunfit : ¬ r.Fits w := fun hfits => by simp [wellFormed_iff.2 ⟨r, hr, hop, hfits⟩] at hw
  rw [hi, acceptIf, if_neg (by simpa [FieldRow.Fits, and_assoc] using hunfit)]

/-- Verdict 3 of R85: a word of some row of the table. -/
theorem decode_of_wellFormed (hw : w.wellFormed = true) : ∃ i, decode w = .ok i := by
  obtain ⟨r, hr, hop, hfits⟩ := wellFormed_iff.1 hw
  obtain ⟨i, hi, -⟩ := FieldRow.decode_eq hr hop
  exact ⟨i, hi.trans (acceptIf_ok.2 ⟨hfits, rfl⟩)⟩

/-- The decoder reads every command back from its word. -/
theorem decode_encode (i : Instr) : decode (encode i) = .ok i := by
  cases i
  all_goals
    rw [encode, decode, opField_commandWord]
    exact acceptIf_ok.2 (by simp)

end Sys2Proof

namespace Sys2Proof.Machine

/-- A word that is no command is refused, and nothing but the answer changes (R85). -/
theorem answerWord_of_decode_error {w : Command} {s : State} {e : DecodeError} (h : decode w = .error e) :
    answerWord w s = refuse s (refusalOf e) := by
  simp only [answerWord, h]

end Sys2Proof.Machine

namespace Sys2Proof.Proofs

open Sys2Proof.Machine

/-- Settles O1: command by command one way, row by row the other. -/
theorem decodeInvertsEncode : Obligations.DecodeInvertsEncode := by
  unfold Obligations.DecodeInvertsEncode
  exact ⟨decode_encode, fun _ _ => encode_of_decode_ok⟩

/-- Settles O2: the three verdicts of the decoder, each answered in the state that no longer holds the word. -/
theorem stepGivesEveryWordItsVerdict : Obligations.StepGivesEveryWordItsVerdict := by
  unfold Obligations.StepGivesEveryWordItsVerdict
  intro s w q hpending
  rw [step_of_pending_cons hpending, toNat_ushiftRight_eq_opField]
  refine ⟨fun hop => ?_, fun hop hw => ?_, fun _ hw => ?_⟩
  · exact answerWord_of_decode_error (decode_of_undefined hop)
  · exact answerWord_of_decode_error (decode_of_not_wellFormed hop hw)
  · obtain ⟨i, hi⟩ := decode_of_wellFormed hw
    exact ⟨i, encode_of_decode_ok hi, hi, answerWord_of_decode_ok hi⟩

/-- Settles O3: the eight words are what the encoder writes for their commands; of the two refused, one has no row's operation
code and the other is in no row. -/
theorem decodesWordsOfTheSpec : Obligations.DecodesWordsOfTheSpec := by
  unfold Obligations.DecodesWordsOfTheSpec
  exact ⟨decode_encode .nop, decode_encode (.keygen 0x42D266), decode_encode (.hdrrd 5), decode_encode (.rxpush 0xE2),
    decode_encode (.txwr 6 0x68), decode_encode (.encrypt 6 6), decode_encode (.txsend 5 0x123), decode_encode (.aencrypt 11),
    decode_of_undefined (by decide), decode_of_not_wellFormed (by decide) (by decide)⟩

end Sys2Proof.Proofs
end

section
/-! PROOFS. What the control and read-out commands answer where every check of their rules passes (spec/40_control_status.md
R100 to R109, spec/44_framer.md R173, R180). -/

namespace Sys2Proof.Machine

variable {s : State}

/-! ## Commands that check nothing (R100, R103, R105) -/

theorem exec_nop (s : State) : exec .nop s = .next (s.respond stOk 0) := rfl

theorem exec_ctrlrd (s : State) : exec .ctrlrd s = .next (s.respond stOk (s.ctrl.setWidth 32)) := rfl

theorem exec_hdrrd (k : BitVec 3) (s : State) : exec (.hdrrd k) s = .next (s.respond stOk (selectedRegister s k)) := rfl

/-! ## `CTRLWR` (R102) -/

theorem not_failed_of_idle (h : s.idle = true) : s.fstate ≠ .failed := by
  obtain ⟨hf, _, _⟩ := idle_iff.1 h
  simp [hf]

theorem exec_ctrlwr (v : BitVec 4) (h : s.idle = true) : exec (.ctrlwr v) s = .next ((s.setCtrl v).respond stOk 0) := by
  rw [exec, execCtrlwr, if_neg (not_failed_of_idle h), if_neg (by simp [h]), complete]

/-! ## `GETSEED`, which looks at the codec before the key schedule (R106) -/

theorem exec_getseed_alt (hf : s.fstate ≠ .failed) (hc : s.codecAlt = true) :
    exec .getseed s = .next (s.respond stOk 0) := by
  rw [exec, execGetseed, if_neg hf, if_pos hc, complete]

theorem exec_getseed_stream (hf : s.fstate ≠ .failed) (hc : s.codecAlt = false) (hk : s.ksvalid = true) :
    exec .getseed s = .next (s.respond stOk s.seed) := by
  rw [exec, execGetseed, if_neg hf, if_neg (by simp [hc]), if_neg (by simp [hk]), complete]

/-! ## One cell of a table (R107 to R109) or of a frame buffer (R173, R180) -/

theorem exec_ptrd (hf : s.fstate ≠ .failed) (hk : s.ksvalid = true) (i : BitVec 15) :
    exec (.ptrd i) s = .next (s.respond stOk (s.pt.read i.toNat)) := by
  rw [exec, execPtrd, if_neg hf, if_neg (by simp [hk]), complete]

theorem exec_itrd (hf : s.fstate ≠ .failed) (hk : s.ksvalid = true) (i : BitVec 9) :
    exec (.itrd i) s = .next (s.respond stOk ((s.itab.read i.toNat).setWidth 32)) := by
  rw [exec, execItrd, if_neg hf, if_neg (by simp [hk]), complete]

theorem exec_vsrd (hf : s.fstate ≠ .failed) (hk : s.ksvalid = true) {i : BitVec 5} (hi : i.toNat ≤ 16) :
    exec (.vsrd i) s = .next (s.respond stOk ((s.vsel.read i.toNat).setWidth 32)) := by
  rw [exec, execVsrd, if_neg hf, if_neg (by simp [hk]), if_neg (Nat.not_lt.2 hi), complete]

theorem exec_rxrd (hf : s.fstate ≠ .failed) {a : BitVec 11} (ha : a.toNat < s.rxlen.toNat) :
    exec (.rxrd a) s = .next (s.respond stOk ((s.rxbuf.read a.toNat).setWidth 32)) := by
  rw [exec, execRxrd, if_neg hf, if_neg (Nat.not_le.2 ha), complete]

theorem exec_txrd (hf : s.fstate ≠ .failed) {a : BitVec 11} (ha : a.toNat < Config.bufcap) :
    exec (.txrd a) s = .next (s.respond stOk ((s.txbuf.read a.toNat).setWidth 32)) := by
  rw [exec, execTxrd, if_neg hf, if_neg (Nat.not_le.2 ha), complete]

end Sys2Proof.Machine

namespace Sys2Proof.Proofs

open Sys2Proof.Machine

/-- Settles O17: none of the commands checks anything, and `HDRRD` selects its register by the operand alone. -/
theorem controlReadsInEveryState : Obligations.ControlReadsInEveryState := by
  unfold Obligations.ControlReadsInEveryState
  intro s
  exact ⟨exec_nop s, exec_ctrlrd s, exec_hdrrd 0 s, exec_hdrrd 1 s, exec_hdrrd 2 s, exec_hdrrd 3 s, exec_hdrrd 4 s,
    exec_hdrrd 5 s, exec_hdrrd 6 s, exec_hdrrd 7 s⟩

/-- Settles O19: the three premises are that the block is idle, which also excludes `Failed`. -/
theorem ctrlwrOnAnIdleBlock : Obligations.CtrlwrOnAnIdleBlock := by
  unfold Obligations.CtrlwrOnAnIdleBlock
  intro v s hfstate hrxlen htxlen
  exact exec_ctrlwr v (idle_iff.2 ⟨hfstate, hrxlen, htxlen⟩)

/-- Settles O20: one answer for each codec. -/
theorem getseedAnswers : Obligations.GetseedAnswers := by
  unfold Obligations.GetseedAnswers
  intro s hf
  exact ⟨fun halt => exec_getseed_alt hf halt, fun hstream hk => exec_getseed_stream hf hstream hk⟩

/-- Settles O21: each read command answers its cell; the tables ask for a key schedule, the buffers for an address in range. -/
theorem readCommandsAnswerTheCell : Obligations.ReadCommandsAnswerTheCell := by
  unfold Obligations.ReadCommandsAnswerTheCell
  intro s hf
  refine ⟨fun hk => ⟨fun i => ?_, fun i => ?_, fun i hi => ?_⟩, fun a ha => ?_, fun a ha => ?_⟩
  · exact exec_ptrd hf hk i
  · exact exec_itrd hf hk i
  · exact exec_vsrd hf hk hi
  · exact exec_rxrd hf ha
  · exact exec_txrd hf ha

end Sys2Proof.Proofs
end

section
/-! PROOFS. The generator and the key schedule (spec/41_prng_keyschedule.md R120 to R130): the command `KEYGEN`, the draws of one
variant among those of all, rejection loops that never end, and which draw each cell of `KS(seed)` holds. -/

namespace Sys2Proof.Machine

open Sys2Proof.Safety

variable {p : Params} {seed v : Word} {k : KeyTables} {s : State}

/-! ## `KEYGEN` (R128, R129) -/

theorem keygen_of_ks_eq_some (hf : s.fstate ≠ .failed) (hk : s.ksvalid = false) (h : ks p seed = some k) :
    keygen p seed s = .next ((s.loadKeys seed k).respond stOk 0) := by
  rw [keygen, if_neg hf, if_neg (by simp [hk]), h]
  rfl

theorem keygen_of_ks_eq_none (hf : s.fstate ≠ .failed) (hk : s.ksvalid = false) (h : ks p seed = none) :
    keygen p seed s = .fault .keygenNeverEnds := by
  rw [keygen, if_neg hf, if_neg (by simp [hk]), h]

theorem exec_keygen (seed : Word) (s : State) : exec (.keygen seed) s = keygen Config.hardware seed s := rfl

/-! ## The draws of one variant among the draws of all (R122) -/

theorem drawAll_generatorAfter_cons (p : Params) (v : Word) (c : Variant → Nat) (x : Variant) (xs : List Variant) :
    drawAll p (generatorAfter p v c) (x :: xs) =
      (x, variantOutput p x v (c x)) :: drawAll p (generatorAfter p v (Function.update c x (c x + 1))) xs := by
  rw [drawAll, draw_generatorAfter]

/-- Among any draws, those of variant `x` give its outputs in order, from its present one on. -/
theorem filter_drawAll_generatorAfter (p : Params) (v : Word) (x : Variant) (xs : List Variant) (c : Variant → Nat) :
    (drawAll p (generatorAfter p v c) xs).filter (·.1 = x) =
      (List.range' (c x) (xs.count x)).map fun n => (x, variantOutput p x v n) := by
  induction xs generalizing c with
  | nil => rfl
  | cons y ys ih =>
    rw [drawAll_generatorAfter_cons]
    by_cases hy : y = x
    · subst hy
      rw [List.filter_cons_of_pos (by simp), ih, Function.update_self, List.count_cons_self, List.range'_succ, List.map_cons]
    · rw [List.filter_cons_of_neg (by simpa using hy), ih, Function.update_of_ne (Ne.symm hy), List.count_cons_of_ne hy]

theorem drawAll_generatorAfter_replicate (p : Params) (v : Word) (x : Variant) (n : Nat) (c : Variant → Nat) :
    drawAll p (generatorAfter p v c) (List.replicate n x) =
      (List.range' (c x) n).map fun i => (x, variantOutput p x v i) := by
  induction n generalizing c with
  | zero => rfl
  | succ n ih =>
    rw [List.replicate_succ, drawAll_generatorAfter_cons, ih, Function.update_self, List.range'_succ, List.map_cons]

/-! ## The states of one variant repeat within `drawBound` draws (R120, R129) -/

/-- The state of one variant of a generator (R121). -/
def Generator.stateOf (g : Generator) : Variant → Word
  | .A => g.a
  | .B => g.b
  | .C => g.c
  | .D => g.d

theorem draw_output (p : Params) (g : Generator) (x : Variant) : (draw p g x).1 = variantOutput p x (g.stateOf x) 0 := by
  cases x <;> rfl

theorem stateOf_draw_self (p : Params) (g : Generator) (x : Variant) :
    (draw p g x).2.stateOf x = variantState p x (g.stateOf x) 1 := by
  cases x <;> rfl

/-- Going on from the state after `m` draws. -/
theorem variantState_add (p : Params) (x : Variant) (v : Word) (m n : Nat) :
    variantState p x v (m + n) = variantState p x (variantState p x v m) n := by
  induction n with
  | zero => rfl
  | succ n ih => rw [← Nat.add_assoc, variantState, ih, variantState]

theorem variantOutput_succ (p : Params) (x : Variant) (v : Word) (n : Nat) :
    variantOutput p x v (n + 1) = variantOutput p x (variantState p x v 1) n := by
  rw [Nat.add_comm, variantOutput, variantState_add, variantOutput]

/-- A state has 2^32 values, so two of the first 2^32 + 1 states are equal. -/
theorem exists_variantState_repeat (p : Params) (x : Variant) (v : Word) :
    ∃ i j, i < j ∧ j ≤ drawBound ∧ variantState p x v i = variantState p x v j := by
  obtain ⟨i, hi, j, hj, hne, heq⟩ := Finset.exists_ne_map_eq_of_card_lt_of_maps_to
    (s := Finset.range (drawBound + 1)) (t := Finset.range drawBound) (f := fun n => (variantState p x v n).toNat)
    (by rw [Finset.card_range, Finset.card_range]; exact Nat.lt_succ_self _)
    fun n _ => Finset.mem_coe.2 (Finset.mem_range.2 (variantState p x v n).isLt)
  have hstate := BitVec.eq_of_toNat_eq heq
  rw [Finset.mem_range] at hi hj
  rcases Nat.lt_or_gt_of_ne hne with hlt | hgt
  · exact ⟨i, j, hlt, Nat.le_of_lt_succ hj, hstate⟩
  · exact ⟨j, i, hgt, Nat.le_of_lt_succ hi, hstate.symm⟩

/-- Every state that a variant ever comes to is one of its first 2^32. -/
theorem exists_lt_drawBound_variantState_eq (p : Params) (x : Variant) (v : Word) (n : Nat) :
    ∃ m, m < drawBound ∧ variantState p x v m = variantState p x v n := by
  induction n using Nat.strong_induction_on with
  | _ n ih =>
    rcases Nat.lt_or_ge n drawBound with hlt | hge
    · exact ⟨n, hlt, rfl⟩
    · obtain ⟨i, j, hij, hj, hrepeat⟩ := exists_variantState_repeat p x v
      obtain ⟨m, hm, heq⟩ := ih (i + (n - j)) (by omega)
      refine ⟨m, hm, ?_⟩
      calc variantState p x v m = variantState p x v (i + (n - j)) := heq
        _ = variantState p x v (j + (n - j)) := by rw [variantState_add, hrepeat, ← variantState_add]
        _ = variantState p x v n := by rw [Nat.add_sub_cancel' (by omega)]

/-- A rejection loop finds nothing within `n` draws where the next `n` outputs of its variant are stored once reduced. -/
theorem drawFresh_eq_none_iff {x : Variant} {reduce : Word → Word} {stored : List Word} {n : Nat} {g : Generator} :
    drawFresh p x reduce stored n g = none ↔ ∀ i, i < n → reduce (variantOutput p x (g.stateOf x) i) ∈ stored := by
  induction n generalizing g with
  | zero => simp [drawFresh]
  | succ n ih =>
    rw [Nat.forall_lt_succ_left]
    simp only [drawFresh, draw_output, variantOutput_succ, ← stateOf_draw_self, ← ih]
    split
    · next hm => simp [hm]
    · next hm => simp [hm]

/-! ## Which draw each cell of `KS(seed)` holds (R123 to R127) -/

theorem variantOf_eq_namedVariant (q : BitVec 2) : variantOf q = namedVariant q := by
  revert q
  decide

theorem selectorOf_eq_extractLsb' (o : Word) : selectorOf o = o.extractLsb' 0 2 := by
  apply BitVec.eq_of_toNat_eq
  have hlow : o.toNat &&& 255 = o.toNat % 256 := Nat.and_two_pow_sub_one_eq_mod o.toNat 8
  simp [selectorOf, hlow]

/-- The 17 selectors (R125): bits 1:0 of the first outputs of variant B of `new(v)`. -/
def selectors (p : Params) (v : Word) : List (BitVec 2) :=
  (List.range' 0 17).map fun j => (variantOutput p .B v j).extractLsb' 0 2

/-- The selectors leave each variant at its first draw for the tables (R125). -/
theorem drawSelectors_newGenerator (p : Params) (v : Word) :
    drawSelectors p 17 (newGenerator v) = (selectors p v, generatorAfter p v firstTableDraw) := by
  have hcount : Function.update (fun _ => 0) Variant.B (0 + 17) = firstTableDraw := by
    funext y
    cases y <;> rfl
  rw [← generatorAfter_zero, drawSelectors_draws, hcount]
  simp only [selectorOf_eq_extractLsb', selectors]

theorem getD_selectors (p : Params) (v : Word) {j : Nat} (hj : j < 17) :
    (selectors p v).getD j 0 = (variantOutput p .B v j).extractLsb' 0 2 := by
  simp [selectors, hj]

/-- The variants of the rows of `PT`, from a list of all the selectors. -/
theorem map_variantOf_take {sel : List (BitVec 2)} (hlen : sel.length = 17) (hvsel : k.vsel = Memory.ofList sel) :
    (sel.take 16).map variantOf = (List.range' 0 16).map (rowVariant k) := by
  apply List.ext_getElem
  · simp [hlen]
  · intro r hr _
    have hr : r < sel.length := by
      simp only [List.length_map, List.length_take] at hr
      omega
    simp [rowVariant, hvsel, Memory.read_ofList, variantOf_eq_namedVariant, hr]

/-- A completed `KS(seed)`, with the loop of R126 replaced by what it leaves (`TableFilled`): after `c y` draws of each variant
`y` the cells of `PT` are `pt`, and the index table's slots are filled from there. -/
theorem ks_draws (h : ks p seed = some k) :
    ∃ (c : Variant → Nat) (pt itab : List Word) (g : Generator),
      k = ⟨Memory.ofList (selectors p (variantOutput p .D seed 0)), Memory.ofList pt.reverse,
        Memory.ofList (itab.reverse.map (BitVec.setWidth 16))⟩ ∧
      pt.length = 32768 ∧ TableFilled p (variantOutput p .D seed 0) (rowVariant k) firstTableDraw c pt ∧
      fillSlots p (rowVariant k 16) (· &&& 0x7FF#32) 512 (generatorAfter p (variantOutput p .D seed 0) c) [] =
        some (itab, g) := by
  have hm : (draw p (newGenerator seed) .D).1 = variantOutput p .D seed 0 := rfl
  simp only [ks, hm, drawSelectors_newGenerator] at h
  split at h
  · simp at h
  · next pt g hrows =>
    split at h
    · simp at h
    · next itab g' hslots =>
      simp only [Option.some.injEq] at h
      have hvsel : k.vsel = Memory.ofList (selectors p (variantOutput p .D seed 0)) := by rw [← h]
      have hlen : (selectors p (variantOutput p .D seed 0)).length = 17 := by simp [selectors]
      have hindex : variantOf ((selectors p (variantOutput p .D seed 0)).getD 16 0) = rowVariant k 16 := by
        rw [variantOf_eq_namedVariant, rowVariant, hvsel, Memory.read_ofList]
      rw [map_variantOf_take hlen hvsel] at hrows
      have hpt := (fillRows_spec hrows).1
      obtain ⟨c, rfl, hfilled⟩ := fillRows_draws (tableFilled_nil p _ _ _) rfl hrows
      rw [hindex] at hslots
      exact ⟨c, pt, itab, g', h.symm, by simpa using hpt, hfilled, hslots⟩

/-- The cells of a permutation table whose values are listed latest first. -/
theorem read_ofList_reverse (stored : List Word) : (Memory.ofList stored.reverse).read = cellsOf stored :=
  funext fun f => Memory.read_ofList stored.reverse f

/-- A cell that took its draw holds a value that no cell before it holds. -/
theorem cell_ne_of_takesDraw {w : Nat} {draws : Nat → BitVec w} {start f g : Nat} {cell : Nat → BitVec w}
    (h : ∃ n, TakesDraw draws start cell f n) (hg : g < f) : cell g ≠ cell f := by
  obtain ⟨_, _, hcell, hfresh, _⟩ := h
  rw [hcell]
  exact hfresh g hg

/-! ### The permutation table (R126) -/

theorem exists_ptCellTakes {c : Variant → Nat} {pt : List Word}
    (hfilled : TableFilled p (variantOutput p .D seed 0) (rowVariant k) firstTableDraw c pt)
    (hread : k.pt.read = cellsOf pt) {f : Nat} (hf : f < pt.length) :
    ∃ n, n < c (rowVariant k (f / 2048)) ∧ PtCellTakes p seed k f n := by
  obtain ⟨_, hslots⟩ := hfilled
  rw [← hread] at hslots
  exact hslots f hf

/-- The draws of the index table's variant that the selectors and `PT` used end where the index table's begin. -/
theorem indexDrawsStart_of_tableFilled {c : Variant → Nat} {pt : List Word}
    (hfilled : TableFilled p (variantOutput p .D seed 0) (rowVariant k) firstTableDraw c pt)
    (hread : k.pt.read = cellsOf pt) (hlen : pt.length = 32768) :
    IndexDrawsStart p seed k (c (rowVariant k 16)) := by
  have ⟨hbase, _, hlast⟩ := hfilled.1 (rowVariant k 16)
  refine ⟨fun f n hf hrow htakes => ?_, hbase, hlast.imp_right ?_⟩
  · obtain ⟨n', hlt, htakes'⟩ := exists_ptCellTakes hfilled hread (hlen ▸ hf)
    rw [takesDraw_unique htakes htakes', ← hrow]
    exact hlt
  · rintro ⟨f, n, hf, hrow, htakes, htop⟩
    exact ⟨f, n, hlen ▸ hf, hrow, by rwa [PtCellTakes, hread, hrow], htop⟩

/-! ### The index table (R127) -/

theorem toNat_low11 (o : Word) : (o &&& 0x7FF#32).toNat = o.toNat % 2048 := by
  rw [BitVec.toNat_and]
  exact Nat.and_two_pow_sub_one_eq_mod o.toNat 11

/-- The low 11 bits pass through a 16-bit cell unchanged. -/
theorem setWidth_setWidth_low11 (o : Word) : ((o &&& 0x7FF#32).setWidth 16).setWidth 32 = o &&& 0x7FF#32 := by
  apply BitVec.eq_of_toNat_eq
  rw [BitVec.toNat_setWidth, BitVec.toNat_setWidth, toNat_low11]
  omega

theorem toNat_lt_of_setWidth_eq_low11 {a : BitVec 16} {o : Word} (h : a.setWidth 32 = o &&& 0x7FF#32) : a.toNat < 2048 := by
  have hval := congrArg BitVec.toNat h
  rw [toNat_low11, BitVec.toNat_setWidth] at hval
  omega

/-- Filling the index table from the state in which a variant has made `start` draws: each cell takes its draw from there on. -/
theorem exists_takesDraw_index {x : Variant} {c : Variant → Nat} {itab : List Word} {g : Generator}
    (hfill : fillSlots p x (· &&& 0x7FF#32) 512 (generatorAfter p v c) [] = some (itab, g)) {j : Nat} (hj : j < 512) :
    ∃ n, TakesDraw (fun e => variantOutput p x v e &&& 0x7FF#32) (c x)
      (fun i => ((Memory.ofList (itab.reverse.map (BitVec.setWidth 16))).read i).setWidth 32) j n := by
  obtain ⟨_, _, _, _, _, _, hslots, _⟩ := fillSlots_draws hfill (le_refl _) fun e hge hlt => by omega
  obtain ⟨n, _, htakes⟩ := hslots j (Nat.zero_le _) (by simpa using hj)
  refine ⟨n, takesDraw_congr htakes fun i hi => ?_⟩
  obtain ⟨n', _, _, hcell, _⟩ := hslots i (Nat.zero_le _) (by simp; omega)
  have hread : (Memory.ofList (itab.reverse.map (BitVec.setWidth 16))).read i = (cellsOf itab i).setWidth 16 := by
    rw [Memory.read_ofList]
    exact List.getD_map (d := 0) itab.reverse (BitVec.setWidth 16)
  rw [hread, hcell, setWidth_setWidth_low11]

end Sys2Proof.Machine

namespace Sys2Proof.Proofs

open Sys2Proof.Machine Sys2Proof.Safety

/-- Settles O12: both sides are the variant's outputs from the first on, as many as its draws. -/
theorem variantsAreIndependent : Obligations.VariantsAreIndependent := by
  unfold Obligations.VariantsAreIndependent
  intro p v xs x
  rw [← generatorAfter_zero, filter_drawAll_generatorAfter, drawAll_generatorAfter_replicate]

/-- Settles O13: the selectors are read off, each cell of a table has its draw from the loops, and cells that took their draws
are pairwise different. -/
theorem keyScheduleCells : Obligations.KeyScheduleCells := by
  unfold Obligations.KeyScheduleCells
  intro p seed k hks
  obtain ⟨c, pt, itab, g, hk, hlen, hfilled, hfill⟩ := ks_draws hks
  have hpt : k.pt.read = cellsOf pt := by rw [hk, read_ofList_reverse]
  have hitab : k.itab = Memory.ofList (itab.reverse.map (BitVec.setWidth 16)) := by rw [hk]
  have hptCell : ∀ f, f < 32768 → ∃ n, PtCellTakes p seed k f n := fun f hf =>
    (exists_ptCellTakes hfilled hpt (hlen ▸ hf)).imp fun _ h => h.2
  have hitCell := fun j (hj : j < 512) => hitab ▸ exists_takesDraw_index hfill hj
  refine ⟨fun j hj => ?_, hptCell, ⟨_, indexDrawsStart_of_tableFilled hfilled hpt hlen, hitCell⟩, fun i j hij hj => ?_,
    fun i j hij hj heq => ?_, fun i hi => ?_⟩
  · rw [hk, Memory.read_ofList, getD_selectors p _ hj]
  · exact cell_ne_of_takesDraw (hptCell j hj) hij
  · exact cell_ne_of_takesDraw (hitCell j hj) hij (congrArg (BitVec.setWidth 32) heq)
  · obtain ⟨_, _, hcell, _⟩ := hitCell i hi
    exact toNat_lt_of_setWidth_eq_low11 hcell

/-- Settles O14: the states of a variant repeat within the bound, so a later output that ended the loop would have ended it
before. -/
theorem drawBoundIsExact : Obligations.DrawBoundIsExact := by
  unfold Obligations.DrawBoundIsExact
  intro p x reduce stored g hnone n
  rw [drawFresh_eq_none_iff] at hnone ⊢
  intro i _
  obtain ⟨m, hm, hstate⟩ := exists_lt_drawBound_variantState_eq p x (g.stateOf x) i
  have hstored := hnone m hm
  rwa [variantOutput, hstate] at hstored

/-- Settles O15: the premises pass the two checks, and what is left is whether `KS(seed)` is defined. -/
theorem keygenLoadsTheKeySchedule : Obligations.KeygenLoadsTheKeySchedule := by
  unfold Obligations.KeygenLoadsTheKeySchedule
  intro seed s hf hk
  exact ⟨fun _ _ h => keygen_of_ks_eq_some hf hk h, fun _ h => keygen_of_ks_eq_none hf hk h, exec_keygen seed s,
    fun _ h => (exec_keygen seed s).trans (keygen_of_ks_eq_some hf hk h)⟩

end Sys2Proof.Proofs
end

section
/-! PROOFS. The header codec (spec/42_header_codec.md R140 to R148): the canonical record by its fields, and `pack` and `unpack`
as one loop that copies chunks between two tilings of the 40 bits, run in opposite directions. -/

namespace Sys2Proof.Machine

/-! ## The canonical record (R140)

`show` writes a record's width as the sum of its parts' widths, which is the form the library's facts about `++` speak of. -/

section
variable (bl c t : BitVec 11) (r : BitVec 4) (k : BitVec 3)

/-- Fields side by side are fields shifted to their places. -/
theorem canon_eq_or_shifts : canon bl c t r k =
    bl.setWidth 40 <<< 29 ||| c.setWidth 40 <<< 18 ||| t.setWidth 40 <<< 7 ||| r.setWidth 40 <<< 3 ||| k.setWidth 40 := by
  rw [← BitVec.setWidth_eq (canon bl c t r k)]
  show (bl ++ c ++ t ++ r ++ k : BitVec (11 + 11 + 11 + 4 + 3)).setWidth 40 = _
  simp only [BitVec.setWidth_append_eq_shiftLeft_setWidth_or, BitVec.shiftLeft_or_distrib, ← BitVec.shiftLeft_add]

@[simp] theorem bufferLengthOf_canon : bufferLengthOf (canon bl c t r k) = bl := by
  show (bl ++ c ++ t ++ r ++ k : BitVec (11 + 11 + 11 + 4 + 3)).extractLsb' 29 11 = bl
  iterate 3 rw [BitVec.extractLsb'_append_eq_of_le (by decide)]
  exact BitVec.extractLsb'_append_eq_left

@[simp] theorem commandOf_canon : commandOf (canon bl c t r k) = c := by
  show (bl ++ c ++ t ++ r ++ k : BitVec (11 + 11 + 11 + 4 + 3)).extractLsb' 18 11 = c
  iterate 3 rw [BitVec.extractLsb'_append_eq_of_le (by decide)]
  exact BitVec.extractLsb'_append_eq_right

@[simp] theorem tableSaltOf_canon : tableSaltOf (canon bl c t r k) = t := by
  show (bl ++ c ++ t ++ r ++ k : BitVec (11 + 11 + 11 + 4 + 3)).extractLsb' 7 11 = t
  iterate 2 rw [BitVec.extractLsb'_append_eq_of_le (by decide)]
  exact BitVec.extractLsb'_append_eq_right

@[simp] theorem rowSaltOf_canon : rowSaltOf (canon bl c t r k) = r := by
  show (bl ++ c ++ t ++ r ++ k : BitVec (11 + 11 + 11 + 4 + 3)).extractLsb' 3 4 = r
  rw [BitVec.extractLsb'_append_eq_of_le (by decide)]
  exact BitVec.extractLsb'_append_eq_right

@[simp] theorem checkValueOf_canon : checkValueOf (canon bl c t r k) = k := BitVec.extractLsb'_append_eq_right

end

/-- A header is the record of its own fields: each begins where the one below it ends. -/
theorem canon_fields (x : Header) :
    canon (bufferLengthOf x) (commandOf x) (tableSaltOf x) (rowSaltOf x) (checkValueOf x) = x := by
  show (x.extractLsb' 29 11 ++ x.extractLsb' 18 11 ++ x.extractLsb' 7 11 ++ x.extractLsb' 3 4 ++ x.extractLsb' 0 3 :
    BitVec (11 + 11 + 11 + 4 + 3)) = x
  iterate 4 rw [BitVec.extractLsb'_append_extractLsb'_eq_extractLsb' (by decide)]
  exact BitVec.extractLsb'_eq_self

/-- The `table_salt` field is its four chunks side by side (R142). -/
theorem tableSaltOf_eq_chunks (x : Header) :
    tableSaltOf x = x.extractLsb' 15 3 ++ x.extractLsb' 12 3 ++ x.extractLsb' 9 3 ++ x.extractLsb' 7 2 := by
  symm
  show (x.extractLsb' 15 3 ++ x.extractLsb' 12 3 ++ x.extractLsb' 9 3 ++ x.extractLsb' 7 2 : BitVec (3 + 3 + 3 + 2)) = _
  iterate 3 rw [BitVec.extractLsb'_append_extractLsb'_eq_extractLsb' (by decide)]
  rfl

/-- Both functions that list the five canonical bytes list the same. -/
theorem b5_eq_canonicalBytes (x : Header) : b5 x = canonicalBytes x := rfl

/-! ## Copying chunks -/

/-- Each chunk of `x` copied from its place under `src` to its place under `dst`, over `w`: the loop that `pack` and `unpack`
share (R145, R146). -/
def copyChunks (src dst : Chunk × Nat → Nat) (x : Header) (cs : List (Chunk × Nat)) (w : Header) : Header :=
  cs.foldl (fun w c => w ||| (x.extractLsb' (src c) c.1.width).setWidth 40 <<< dst c) w

theorem pack_eq_copyChunks (d : Direction) (x : Header) :
    pack d x = copyChunks (·.1.canonLow) (·.2) x (wirePositions d) 0 := rfl

theorem unpack_eq_copyChunks (d : Direction) (w : Header) :
    unpack d w = copyChunks (·.2) (·.1.canonLow) w (wirePositions d) 0 := rfl

/-- The chunks' places tile the 40 bits with no gap and no overlap (R142). -/
structure Tiles (cs : List (Chunk × Nat)) (place : Chunk × Nat → Nat) : Prop where
  inside : ∀ c ∈ cs, place c + c.1.width ≤ 40
  disjoint : ∀ c ∈ cs, ∀ e ∈ cs, c = e ∨ place c + c.1.width ≤ place e ∨ place e + e.1.width ≤ place c
  cover : ∀ i < 40, ∃ c ∈ cs, ∃ n < c.1.width, i = place c + n

variable {cs : List (Chunk × Nat)} {src dst : Chunk × Nat → Nat} {x w : Header} {d : Direction} {i j n : Nat} {c : Chunk × Nat}

/-- The bits that one chunk of `x` brings to its place. -/
theorem getLsbD_copiedChunk (s p len : Nat) (hi : i < 40) :
    ((x.extractLsb' s len).setWidth 40 <<< p).getLsbD i = true ↔ ∃ n < len, i = p + n ∧ x.getLsbD (s + n) = true := by
  simp only [BitVec.getLsbD_shiftLeft, BitVec.getLsbD_setWidth, BitVec.getLsbD_extractLsb', Bool.and_eq_true,
    decide_eq_true_eq, Bool.not_eq_true', decide_eq_false_iff_not]
  constructor
  · rintro ⟨⟨-, hp⟩, -, hlen, hbit⟩
    exact ⟨i - p, hlen, by omega, hbit⟩
  · rintro ⟨n, hn, rfl, hbit⟩
    rw [Nat.add_sub_cancel_left]
    exact ⟨⟨hi, by omega⟩, by omega, hn, hbit⟩

/-- A bit of the copy is set when it was set before or some chunk brings a set bit to it. -/
theorem getLsbD_copyChunks (hi : i < 40) : (copyChunks src dst x cs w).getLsbD i = true ↔
    w.getLsbD i = true ∨ ∃ c ∈ cs, ∃ n < c.1.width, i = dst c + n ∧ x.getLsbD (src c + n) = true := by
  induction cs generalizing w with
  | nil => simp [copyChunks]
  | cons c cs ih =>
    have hstep : copyChunks src dst x (c :: cs) w =
      copyChunks src dst x cs (w ||| (x.extractLsb' (src c) c.1.width).setWidth 40 <<< dst c) := rfl
    rw [hstep, ih, BitVec.getLsbD_or, Bool.or_eq_true, getLsbD_copiedChunk _ _ _ hi, or_assoc]
    simp only [List.mem_cons, or_and_right, exists_or, exists_eq_left]

/-- Where the new places tile the header, each bit of a chunk arrives as it was: no other chunk touches it. -/
theorem getLsbD_copyChunks_of_mem (hdst : Tiles cs dst) (hc : c ∈ cs) (hn : n < c.1.width) :
    (copyChunks src dst x cs 0).getLsbD (dst c + n) = x.getLsbD (src c + n) := by
  have hin := hdst.inside c hc
  rw [Bool.eq_iff_iff, getLsbD_copyChunks (by omega)]
  constructor
  · rintro (hzero | ⟨e, he, m, hm, hplace, hbit⟩)
    · simp at hzero
    · obtain rfl : c = e := (hdst.disjoint c hc e he).resolve_right (by omega)
      rwa [Nat.add_left_cancel hplace]
  · exact fun hbit => .inr ⟨c, hc, n, hn, rfl, hbit⟩

/-- A chunk is moved as a unit (R142). -/
theorem extractLsb'_copyChunks_of_mem (hdst : Tiles cs dst) (hc : c ∈ cs) :
    (copyChunks src dst x cs 0).extractLsb' (dst c) c.1.width = x.extractLsb' (src c) c.1.width := by
  refine BitVec.eq_of_getLsbD_eq fun n hn => ?_
  rw [BitVec.getLsbD_extractLsb', BitVec.getLsbD_extractLsb', getLsbD_copyChunks_of_mem hdst hc hn]

/-- Copying back restores the header: each of its bits is in some chunk, and that chunk goes there and back. -/
theorem copyChunks_copyChunks (hsrc : Tiles cs src) (hdst : Tiles cs dst) (x : Header) :
    copyChunks dst src (copyChunks src dst x cs 0) cs 0 = x := by
  refine BitVec.eq_of_getLsbD_eq fun i hi => ?_
  obtain ⟨c, hc, n, hn, rfl⟩ := hsrc.cover i hi
  rw [getLsbD_copyChunks_of_mem hsrc hc hn, getLsbD_copyChunks_of_mem hdst hc hn]

/-! ## `pack` and `unpack` (R142 to R146) -/

theorem tiles_wire (d : Direction) : Tiles (wirePositions d) (·.2) := by
  constructor <;> cases d <;> decide

theorem tiles_canon (d : Direction) : Tiles (wirePositions d) (·.1.canonLow) := by
  constructor <;> cases d <;> decide

@[simp] theorem unpack_pack (d : Direction) (x : Header) : unpack d (pack d x) = x := by
  rw [unpack_eq_copyChunks, pack_eq_copyChunks, copyChunks_copyChunks (tiles_canon d) (tiles_wire d)]

@[simp] theorem pack_unpack (d : Direction) (w : Header) : pack d (unpack d w) = w := by
  rw [pack_eq_copyChunks, unpack_eq_copyChunks, copyChunks_copyChunks (tiles_wire d) (tiles_canon d)]

/-- Wire bit `i` of the direction is canonical bit `j`: one bit of one chunk, at the chunk's two places. -/
def SameBit (d : Direction) (i j : Nat) : Prop :=
  ∃ c ∈ wirePositions d, ∃ n < c.1.width, i = c.2 + n ∧ j = c.1.canonLow + n

theorem getLsbD_pack_of_sameBit (h : SameBit d i j) : (pack d x).getLsbD i = x.getLsbD j := by
  obtain ⟨c, hc, n, hn, rfl, rfl⟩ := h
  rw [pack_eq_copyChunks, getLsbD_copyChunks_of_mem (tiles_wire d) hc hn]

/-- The spec's list for S2C names the bits that the chunks carry (R143). -/
theorem sameBit_s2cWireBits : ∀ k < 40, SameBit .s2c (39 - k) (s2cWireBits.getD k 0) := by
  unfold SameBit
  decide

/-- The spec's list for C2S names the bits that the chunks carry (R144). -/
theorem sameBit_c2sWireBits : ∀ k < 40, SameBit .c2s (39 - k) (c2sWireBits.getD k 0) := by
  unfold SameBit
  decide

/-! ## The salt on the wire (R147) -/

/-- The mask is where `pack` puts the ones of the `table_salt` field. -/
theorem saltMask_eq_pack (d : Direction) : saltMask d = pack d 0x000003FF80 := by
  cases d <;> decide

theorem extractLsb'_unpack (hc : c ∈ wirePositions d) :
    (unpack d w).extractLsb' c.1.canonLow c.1.width = w.extractLsb' c.2 c.1.width := by
  rw [unpack_eq_copyChunks, extractLsb'_copyChunks_of_mem (tiles_canon d) hc]

/-- The salt of an unpacked header, from wherever the direction puts the four chunks. -/
theorem tableSaltOf_unpack {p₁ p₂ p₃ p₄ : Nat} (h₁ : (.S1, p₁) ∈ wirePositions d) (h₂ : (.S2, p₂) ∈ wirePositions d)
    (h₃ : (.S3, p₃) ∈ wirePositions d) (h₄ : (.S4, p₄) ∈ wirePositions d) (w : Header) :
    tableSaltOf (unpack d w) = w.extractLsb' p₁ 3 ++ w.extractLsb' p₂ 3 ++ w.extractLsb' p₃ 3 ++ w.extractLsb' p₄ 2 := by
  have hS1 : (unpack d w).extractLsb' 15 3 = w.extractLsb' p₁ 3 := extractLsb'_unpack h₁
  have hS2 : (unpack d w).extractLsb' 12 3 = w.extractLsb' p₂ 3 := extractLsb'_unpack h₂
  have hS3 : (unpack d w).extractLsb' 9 3 = w.extractLsb' p₃ 3 := extractLsb'_unpack h₃
  have hS4 : (unpack d w).extractLsb' 7 2 = w.extractLsb' p₄ 2 := extractLsb'_unpack h₄
  rw [tableSaltOf_eq_chunks, hS1, hS2, hS3, hS4]

theorem saltOf_eq_tableSaltOf_unpack (d : Direction) (w : Header) : saltOf d w = tableSaltOf (unpack d w) := by
  cases d with
  | s2c => exact (tableSaltOf_unpack (by decide) (by decide) (by decide) (by decide) w).symm
  | c2s => exact (tableSaltOf_unpack (by decide) (by decide) (by decide) (by decide) w).symm

end Sys2Proof.Machine

namespace Sys2Proof.Proofs

open Sys2Proof.Machine

/-- Settles O5: what `canon` puts side by side is shifted into place and read back, and a header's own fields lie side by side. -/
theorem canonicalRecordFields : Obligations.CanonicalRecordFields := by
  unfold Obligations.CanonicalRecordFields
  refine ⟨fun bl c t r k => ⟨canon_eq_or_shifts bl c t r k, ?_⟩, fun x => ⟨canon_fields x, b5_eq_canonicalBytes x⟩⟩
  exact ⟨bufferLengthOf_canon bl c t r k, commandOf_canon bl c t r k, tableSaltOf_canon bl c t r k,
    rowSaltOf_canon bl c t r k, checkValueOf_canon bl c t r k⟩

/-- Settles O6: both lists name, wire bit by wire bit, the canonical bit that its chunk carries there. -/
theorem packMovesEachBit : Obligations.PackMovesEachBit := by
  unfold Obligations.PackMovesEachBit
  intro x k hk
  exact ⟨getLsbD_pack_of_sameBit (sameBit_s2cWireBits k hk), getLsbD_pack_of_sameBit (sameBit_c2sWireBits k hk)⟩

/-- Settles O7: the chunks tile the canonical header and the wire header, so copying them there and back loses nothing. -/
theorem unpackInvertsPack : Obligations.UnpackInvertsPack := by
  unfold Obligations.UnpackInvertsPack
  exact fun d x w => ⟨unpack_pack d x, pack_unpack d w⟩

/-- Settles O8: the two masks and the two readings are the model's own by case, and the salt's four chunks arrive in `unpack` as
they stood on the wire. -/
theorem saltPositions : Obligations.SaltPositions := by
  unfold Obligations.SaltPositions
  exact ⟨rfl, rfl, saltMask_eq_pack, fun _ => ⟨rfl, rfl⟩, saltOf_eq_tableSaltOf_unpack⟩

end Sys2Proof.Proofs
end

section
/-! PROOFS. The header cipher and the keystreams (spec/43_stream_cipher.md R152 to R155): the bytes of a header, the bits that the
salt mask leaves in clear, and both directions of the cipher as one involution on wire headers. -/

namespace Sys2Proof.Machine

variable {pt : Memory 32} {d : Direction} {t : BitVec 11} {x w : Header} {i j : Nat}

/-! ## The bytes of a header (R15) -/

theorem headerByte_v5 (b₀ b₁ b₂ b₃ b₄ : Byte) (hj : j < 5) :
    headerByte (v5 b₀ b₁ b₂ b₃ b₄) j = [b₀, b₁, b₂, b₃, b₄].getD j 0 := by
  show (b₀ ++ b₁ ++ b₂ ++ b₃ ++ b₄ : BitVec (8 + 8 + 8 + 8 + 8)).extractLsb' (32 - 8 * j) 8 = _
  match j, hj with
  | 0, _ =>
    iterate 4 rw [BitVec.extractLsb'_append_eq_of_le (by decide)]
    exact BitVec.extractLsb'_eq_self
  | 1, _ | 2, _ | 3, _ | 4, _ =>
    repeat rw [BitVec.extractLsb'_append_eq_of_le (by decide)]
    exact BitVec.extractLsb'_append_eq_right

/-- A header is its own five bytes side by side. -/
theorem v5_headerByte (x : Header) :
    v5 (headerByte x 0) (headerByte x 1) (headerByte x 2) (headerByte x 3) (headerByte x 4) = x := by
  show (x.extractLsb' 32 8 ++ x.extractLsb' 24 8 ++ x.extractLsb' 16 8 ++ x.extractLsb' 8 8 ++ x.extractLsb' 0 8 :
    BitVec (8 + 8 + 8 + 8 + 8)) = x
  iterate 4 rw [BitVec.extractLsb'_append_extractLsb'_eq_extractLsb' (by decide)]
  exact BitVec.extractLsb'_eq_self

/-! ## The keystreams (R152, R153) -/

theorem cellByte_eq_extractLsb' (c : Word) : cellByte c = c.extractLsb' 0 8 := BitVec.setWidth_eq_extractLsb' (by decide)

theorem headerByte_headerKeystream (pt : Memory 32) (t : BitVec 11) (hj : j < 5) :
    headerByte (headerKeystream pt t) j = cellByte (pt.read (flatIndex j t.toNat)) := by
  rw [headerKeystream, headerByte_v5 _ _ _ _ _ hj]
  match j, hj with
  | 0, _ | 1, _ | 2, _ | 3, _ | 4, _ => rfl

/-- The two masks of R153 are remainders. -/
theorem bodyKeystream_eq (pt : Memory 32) (r : BitVec 4) (t : BitVec 11) (i : Nat) :
    bodyKeystream pt r t i = cellByte (pt.read (flatIndex ((r.toNat + i) % 16) ((t.toNat + i) % 2048))) := by
  have hrow : (r.toNat + i) &&& 0xF = (r.toNat + i) % 16 := Nat.and_two_pow_sub_one_eq_mod _ 4
  have hslot : (t.toNat + i) &&& 0x7FF = (t.toNat + i) % 2048 := Nat.and_two_pow_sub_one_eq_mod _ 11
  rw [bodyKeystream, hrow, hslot]

/-! ## The header cipher (R154, R155) -/

/-- A wire header under the header keystream of `t`, the salt's positions in clear: what R154 and R155 share. -/
def cipherHeader (pt : Memory 32) (d : Direction) (t : BitVec 11) (w : Header) : Header :=
  ((w ^^^ headerKeystream pt t) &&& ~~~ saltMask d) ||| (w &&& saltMask d)

theorem encodeHeader_eq (pt : Memory 32) (d : Direction) (x : Header) :
    encodeHeader pt d x = cipherHeader pt d (tableSaltOf x) (pack d x) := rfl

theorem decodeHeader_eq (pt : Memory 32) (d : Direction) (w : Header) :
    decodeHeader pt d w = unpack d (cipherHeader pt d (saltOf d w) w) := rfl

theorem getLsbD_cipherHeader (hi : i < 40) :
    (cipherHeader pt d t w).getLsbD i =
      if (saltMask d).getLsbD i then w.getLsbD i else (w.getLsbD i ^^ (headerKeystream pt t).getLsbD i) := by
  simp only [cipherHeader, BitVec.getLsbD_or, BitVec.getLsbD_and, BitVec.getLsbD_xor, BitVec.getLsbD_not, hi, decide_true]
  cases (saltMask d).getLsbD i <;> simp

/-- XORed twice with the same keystream, or left in clear twice, each bit comes back. -/
@[simp] theorem cipherHeader_cipherHeader : cipherHeader pt d t (cipherHeader pt d t w) = w := by
  refine BitVec.eq_of_getLsbD_eq fun i hi => ?_
  simp only [getLsbD_cipherHeader hi]
  cases (saltMask d).getLsbD i <;> simp

theorem cipherHeader_and_saltMask : cipherHeader pt d t w &&& saltMask d = w &&& saltMask d := by
  refine BitVec.eq_of_getLsbD_eq fun i hi => ?_
  simp only [BitVec.getLsbD_and, getLsbD_cipherHeader hi]
  cases (saltMask d).getLsbD i <;> simp

theorem extractLsb'_and_of_allOnes {m : Header} {a n : Nat} (h : m.extractLsb' a n = BitVec.allOnes n) :
    (w &&& m).extractLsb' a n = w.extractLsb' a n := by
  rw [BitVec.extractLsb'_and, h, BitVec.and_allOnes]

/-- The salt is read from the mask's positions alone: the mask is all ones at each chunk's place (R147). -/
theorem saltOf_and_saltMask (d : Direction) (w : Header) : saltOf d (w &&& saltMask d) = saltOf d w := by
  cases d
  all_goals simp (disch := decide) only [saltOf, extractLsb'_and_of_allOnes]

/-- The cipher leaves the salt as it is, so the receiver reads the sender's. -/
@[simp] theorem saltOf_cipherHeader : saltOf d (cipherHeader pt d t w) = saltOf d w := by
  rw [← saltOf_and_saltMask, cipherHeader_and_saltMask, saltOf_and_saltMask]

@[simp] theorem decodeHeader_encodeHeader (pt : Memory 32) (d : Direction) (x : Header) :
    decodeHeader pt d (encodeHeader pt d x) = x := by
  have hsalt : saltOf d (pack d x) = tableSaltOf x := by rw [saltOf_eq_tableSaltOf_unpack, unpack_pack]
  rw [decodeHeader_eq, encodeHeader_eq, saltOf_cipherHeader, hsalt, cipherHeader_cipherHeader, unpack_pack]

@[simp] theorem encodeHeader_decodeHeader (pt : Memory 32) (d : Direction) (w : Header) :
    encodeHeader pt d (decodeHeader pt d w) = w := by
  have hsalt : tableSaltOf (decodeHeader pt d w) = saltOf d w := by
    rw [decodeHeader_eq, ← saltOf_eq_tableSaltOf_unpack, saltOf_cipherHeader]
  rw [encodeHeader_eq, hsalt, decodeHeader_eq, pack_unpack, cipherHeader_cipherHeader]

end Sys2Proof.Machine

namespace Sys2Proof.Proofs

open Sys2Proof.Machine

/-- Settles O9: each byte of the header keystream is the cell `headerKeystream` puts there, and the two masks are remainders,
which keep the index inside the 16 rows of 2048. -/
theorem keystreamCells : Obligations.KeystreamCells := by
  unfold Obligations.KeystreamCells
  refine ⟨fun pt t j hj => ?_, fun pt r t i => ⟨?_, ?_⟩⟩
  · exact (headerByte_headerKeystream pt t hj).trans (cellByte_eq_extractLsb' _)
  · exact (bodyKeystream_eq pt r t i).trans (cellByte_eq_extractLsb' _)
  · omega

/-- Settles O10: the cipher bit by bit, on the packed header. -/
theorem headerCipherLeavesSaltInClear : Obligations.HeaderCipherLeavesSaltInClear := by
  unfold Obligations.HeaderCipherLeavesSaltInClear
  exact fun _ _ _ _ hi => getLsbD_cipherHeader hi

/-- Settles O11: the cipher is an involution that keeps the salt it is keyed by, and `pack` and `unpack` are inverse. -/
theorem headerCipherRoundTrip : Obligations.HeaderCipherRoundTrip := by
  unfold Obligations.HeaderCipherRoundTrip
  exact fun pt d x w => ⟨decodeHeader_encodeHeader pt d x, encodeHeader_decodeHeader pt d w⟩

end Sys2Proof.Proofs
end

section
/-! PROOFS. The commands of the stream codec in manual mode, each where every check of its rule passes: `DECHDR` (R156), `DECBODY`
(R159) with the checksum byte it verifies (R163), and `ENCRYPT` (R161) of spec/43_stream_cipher.md. -/

namespace Sys2Proof.Machine

open Sys2Proof.Safety

variable {s : State} {m m' : Memory 8} {size c : BitVec 11} {a : Nat}

/-! ## The checksum chain (R150) -/

theorem checksumFrom_append (ck : Byte) (bs bs' : List Byte) :
    checksumFrom ck (bs ++ bs') = checksumFrom (checksumFrom ck bs) bs' := List.foldl_append

/-- The body's checksum looks at no byte before the body, byte 5 in particular. -/
theorem bodyChecksum_congr (s : State) (n : Nat) (h : ∀ a, 6 ≤ a → m.read a = m'.read a) :
    bodyChecksum s m n = bodyChecksum s m' n := by
  refine congrArg (checksumFrom s.ck) (List.map_congr_left fun a ha => ?_)
  rw [List.mem_range'_1] at ha
  rw [bodyPlain, bodyPlain, h a ha.1]

/-! ## `DECHDR` (R156) -/

theorem wf_dechdr (p : Params) (h : s.rxbuf.wf) : (dechdr p s).rxbuf.wf := Memory.wf_writeList h 0 _

/-- The registers after a decode are those of the header it received. -/
theorem withHeader_dechdr (s : State) :
    withHeader (dechdr Config.hardware s) (receivedHeader s) = dechdr Config.hardware s := rfl

theorem prologueOf_dechdr (h : s.rxbuf.wf) : PrologueOf (receivedHeader s) (dechdr Config.hardware s).rxbuf :=
  ⟨dechdr_read _ s h 0, dechdr_read _ s h 1, dechdr_read _ s h 2, dechdr_read _ s h 3, dechdr_read _ s h 4⟩

theorem read_dechdr_of_ge (p : Params) (h : s.rxbuf.wf) (ha : 5 ≤ a) : (dechdr p s).rxbuf.read a = s.rxbuf.read a := by
  rw [dechdr_read p s h, List.getD_eq_default _ _ ha]

/-! ## `DECBODY` (R159) -/

theorem bodyBuffered_iff : s.bodyBuffered = true ↔ 6 ≤ s.rxlen.toNat ∧ s.blen.toNat ≤ s.rxlen.toNat := by
  rw [State.bodyBuffered, decide_eq_true_iff, max_le_iff]

theorem exec_decbody (hf : s.fstate ≠ .failed) (hk : s.ksvalid = true) (ha : s.auto = false) (hb : s.bodyBuffered = true) :
    exec .decbody s =
      .next ((decbody Config.hardware s).1.respond stOk (if (decbody Config.hardware s).2 then 1 else 0)) := by
  show decbodyCommand Config.hardware s = _
  simp [decbodyCommand, hf, hk, ha, hb, complete]

/-- `decbody()` under the block's own configuration, in the terms of the statements. -/
theorem decbody_hardware (h : s.rxbuf.wf) :
    ∃ m, decbody Config.hardware s =
        ({ s with rxbuf := m, ck := bodyChecksum s s.rxbuf s.blen.toNat },
          bodyChecksum s s.rxbuf s.blen.toNat == s.rxbuf.read 5) ∧
      ∀ a, m.read a = if 6 ≤ a ∧ a < s.blen.toNat then bodyPlain s s.rxbuf a else s.rxbuf.read a := by
  obtain ⟨m, ck, hdecbody, _, hread, rfl⟩ := decbody_spec Config.hardware s h
  exact ⟨m, hdecbody, hread⟩

theorem decbody_accepts_iff (h : s.rxbuf.wf) :
    (decbody Config.hardware s).2 = true ↔ bodyChecksum s s.rxbuf s.blen.toNat = s.rxbuf.read 5 := by
  obtain ⟨m, hdecbody, _⟩ := decbody_hardware h
  rw [hdecbody, beq_iff_eq]

/-- `DECBODY` answered 1: every check passed, and the checksum is byte 5. -/
theorem of_exec_decbody_accepts {t : State} (h : exec .decbody s = .next t) (hr : t.response = some ⟨0x00, 1⟩)
    (hwf : s.rxbuf.wf) : s.fstate ≠ .failed ∧ s.ksvalid = true ∧ s.auto = false ∧ s.bodyBuffered = true ∧
      bodyChecksum s s.rxbuf s.blen.toNat = s.rxbuf.read 5 := by
  cases exec_cases h with
  | refused _ _ c hc => simp at hr
  | decbody _ hf hk ha hb =>
    refine ⟨hf, hk, ha, hb, (decbody_accepts_iff hwf).1 ?_⟩
    by_contra hrejects
    simp [hrejects] at hr

/-! ## `ENCRYPT` (R161) -/

theorem exec_encrypt (hf : s.fstate ≠ .failed) (hk : s.ksvalid = true) (ht : s.txlen = 0) (hl : 6 ≤ size.toNat) :
    exec (.encrypt size c) s = .next ((encryptFrame Config.hardware size c s).respond stOk (size.setWidth 32)) := by
  show encryptCommand Config.hardware size c s = _
  simp [encryptCommand, hf, hk, ht, Nat.not_lt.2 hl, complete]

end Sys2Proof.Machine

namespace Sys2Proof.Proofs

open Sys2Proof.Machine Sys2Proof.Safety

/-- Settles O31: the registers are those of the received header, and the prologue is what `dechdr()` writes over bytes 0 to 4. -/
theorem dechdrDecodesTheHeader : Obligations.DechdrDecodesTheHeader := by
  unfold Obligations.DechdrDecodesTheHeader
  intro s hf hk ha hl hwf
  have hanswer : (dechdr Config.hardware s).blen.setWidth 32 = ((receivedHeader s).extractLsb' 29 11).setWidth 32 :=
    BitVec.setWidth_setWidth (by decide)
  refine ⟨(dechdr Config.hardware s).rxbuf, ?_, prologueOf_dechdr hwf, fun a ha => read_dechdr_of_ge _ hwf ha⟩
  rw [exec_dechdr hf hk ha hl, hanswer]
  rfl

/-- Settles O32: what `decbody()` does, and its answer as a number. -/
theorem decbodyDecryptsAndVerifies : Obligations.DecbodyDecryptsAndVerifies := by
  unfold Obligations.DecbodyDecryptsAndVerifies
  intro s hf hk ha hl hb hwf
  obtain ⟨m, hdecbody, hread⟩ := decbody_hardware hwf
  refine ⟨m, ?_, hread⟩
  rw [exec_decbody hf hk ha (bodyBuffered_iff.2 ⟨hl, hb⟩), hdecbody]
  simp only [beq_iff_eq]
  rfl

/-- Settles O33: what `encrypt()` writes, with its checksum as one chain over header and body. -/
theorem encryptWritesTheFrame : Obligations.EncryptWritesTheFrame := by
  unfold Obligations.EncryptWritesTheFrame
  intro size c s hf hk ht hl hwf
  obtain ⟨m, hencrypt, _, hheader, hck, hbody, hrest⟩ := encryptFrame_spec Config.hardware s size c hl hwf
  refine ⟨m, ?_, hheader, ?_, hbody, hrest⟩
  · rw [exec_encrypt hf hk ht hl, hencrypt]
    rfl
  · rw [checksumFrom_append]
    exact hck

/-- Settles O53: the checksum is over bytes that did not change, and was the old byte 5. -/
theorem changedChecksumByteIsRejected : Obligations.ChangedChecksumByteIsRejected := by
  unfold Obligations.ChangedChecksumByteIsRejected
  intro s t m hexec hresponse hwf hm hsame hchanged
  obtain ⟨hf, hk, ha, hb, haccepts⟩ := of_exec_decbody_accepts hexec hresponse hwf
  have hck : bodyChecksum s m s.blen.toNat ≠ m.read 5 := by
    rw [bodyChecksum_congr s _ fun a ha => hsame a (by omega), haccepts]
    exact hchanged.symm
  have hrejects : ¬ (decbody Config.hardware { s with rxbuf := m }).2 = true := (decbody_accepts_iff hm).not.2 hck
  refine ⟨_, exec_decbody hf hk ha hb, ?_⟩
  rw [if_neg hrejects]
  rfl

end Sys2Proof.Proofs
end

section
/-! PROOFS. The stream codec's round trip in manual mode (spec/43_stream_cipher.md R162): what a frame on the wire holds, and that
`dechdr()` and `decbody()` restore what `encrypt()` put there. -/

namespace Sys2Proof.Machine

open Sys2Proof.Safety

variable {pt : Memory 32} {d : Direction} {size c : BitVec 11} {plain frame : Nat → Byte} {s : State}

/-! ## The bytes of a frame (R160, R161) -/

/-- `frame` is what `encrypt(size, c)` makes of the body `plain` under the table `pt` in direction `d`. -/
structure FrameOf (pt : Memory 32) (d : Direction) (size c : BitVec 11) (plain frame : Nat → Byte) : Prop where
  header : ∀ j, j < 5 → frame j = headerByte (encodeHeader pt d (canon size c 1 1 2)) j
  checksum : frame 5 =
    checksumFrom 0 (canonicalBytes (canon size c 1 1 2) ++ (List.range' 6 (size.toNat - 6)).map plain)
  body : ∀ a, 6 ≤ a → a < size.toNat → frame a = plain a ^^^ bodyKeystream pt 1 1 a

theorem frameOf_encryptFrame (s : State) (hl : 6 ≤ size.toNat) (hwf : s.txbuf.wf) :
    FrameOf s.pt s.txdir size c s.txbuf.read (encryptFrame Config.hardware size c s).txbuf.read := by
  obtain ⟨m, hencrypt, _, hheader, hck, hbody, _⟩ := encryptFrame_spec Config.hardware s size c hl hwf
  rw [hencrypt]
  exact ⟨hheader, hck.trans (checksumFrom_append ..).symm, hbody⟩

/-! ## `dechdr()` of a frame (R156) -/

/-- The five wire bytes are those of the encoded record, which the header cipher decodes. -/
theorem FrameOf.receivedHeader (h : FrameOf pt d size c plain frame) (hpt : s.pt = pt) (hdir : s.rxdir = d)
    (hread : ∀ a, a < 5 → s.rxbuf.read a = frame a) : receivedHeader s = canon size c 1 1 2 := by
  have hwire (j : Nat) (hj : j < 5) : s.rxbuf.read j = headerByte (encodeHeader pt d (canon size c 1 1 2)) j :=
    (hread j hj).trans (h.header j hj)
  show decodeHeader s.pt s.rxdir
    (v5 (s.rxbuf.read 0) (s.rxbuf.read 1) (s.rxbuf.read 2) (s.rxbuf.read 3) (s.rxbuf.read 4)) = _
  rw [hwire 0 (by decide), hwire 1 (by decide), hwire 2 (by decide), hwire 3 (by decide), hwire 4 (by decide),
    v5_headerByte, hpt, hdir, decodeHeader_encodeHeader]

/-- The header registers of a frame that `encrypt(size, c)` made (R160). -/
structure HeaderLoaded (size c : BitVec 11) (s : State) : Prop where
  blen : s.blen = size.setWidth 16
  cmd : s.cmd = c.setWidth 16
  tsalt : s.tsalt = 1
  rsalt : s.rsalt = 1
  kval : s.kval = 2
  dlen : s.dlen.toNat = size.toNat - 2
  ck : s.ck = checksumFrom 0 (canonicalBytes (canon size c 1 1 2))

theorem headerLoaded_withHeader (s : State) (size c : BitVec 11) :
    HeaderLoaded size c (withHeader s (canon size c 1 1 2)) where
  blen := congrArg (BitVec.setWidth 16) (bufferLengthOf_canon size c 1 1 2)
  cmd := congrArg (BitVec.setWidth 16) (commandOf_canon size c 1 1 2)
  tsalt := tableSaltOf_canon size c 1 1 2
  rsalt := rowSaltOf_canon size c 1 1 2
  kval := checkValueOf_canon size c 1 1 2
  dlen := by
    show (BitVec.ofNat 16 ((bufferLengthOf _).toNat - (checkValueOf _).toNat)).toNat = _
    rw [bufferLengthOf_canon, checkValueOf_canon, BitVec.toNat_ofNat]
    show (size.toNat - 2) % 2 ^ 16 = _
    omega
  ck := rfl

theorem HeaderLoaded.toNat_blen (h : HeaderLoaded size c s) : s.blen.toNat = size.toNat := by
  rw [h.blen, BitVec.toNat_setWidth]
  omega

theorem HeaderLoaded.respond (h : HeaderLoaded size c s) (st : BitVec 8) (r : BitVec 32) :
    HeaderLoaded size c (s.respond st r) := { h with }

theorem FrameOf.headerLoaded_dechdr (h : FrameOf pt d size c plain frame) (hpt : s.pt = pt) (hdir : s.rxdir = d)
    (hread : ∀ a, a < 5 → s.rxbuf.read a = frame a) : HeaderLoaded size c (dechdr Config.hardware s) := by
  rw [← withHeader_dechdr, h.receivedHeader hpt hdir hread]
  exact headerLoaded_withHeader _ size c

/-! ## `decbody()` of a frame (R159) -/

section
variable (h : FrameOf pt d size c plain frame) (hs : HeaderLoaded size c s) (hpt : s.pt = pt)
  (hread : ∀ a, 5 ≤ a → a < size.toNat → s.rxbuf.read a = frame a)
include h hs hpt hread

/-- XORed once more with its keystream byte, a body byte is the plain one. -/
theorem FrameOf.bodyPlain_eq {a : Nat} (h6 : 6 ≤ a) (ha : a < size.toNat) : bodyPlain s s.rxbuf a = plain a := by
  rw [bodyPlain, hread a (by omega) ha, h.body a h6 ha, hpt, hs.rsalt, hs.tsalt, xor_cancel_right]

/-- The receiver folds the bytes that the sender folded. -/
theorem FrameOf.bodyChecksum_eq (hl : 6 ≤ size.toNat) :
    bodyChecksum s s.rxbuf s.blen.toNat = s.rxbuf.read 5 := by
  have hplain : (List.range' 6 (size.toNat - 6)).map (bodyPlain s s.rxbuf) =
      (List.range' 6 (size.toNat - 6)).map plain := by
    refine List.map_congr_left fun a ha => ?_
    rw [List.mem_range'_1] at ha
    exact h.bodyPlain_eq hs hpt hread ha.1 (by omega)
  calc bodyChecksum s s.rxbuf s.blen.toNat
      = checksumFrom s.ck ((List.range' 6 (size.toNat - 6)).map plain) := by rw [bodyChecksum, hs.toNat_blen, hplain]
    _ = frame 5 := by rw [hs.ck, ← checksumFrom_append, h.checksum]
    _ = s.rxbuf.read 5 := (hread 5 (le_refl 5) (by omega)).symm

theorem FrameOf.decbody_accepts (hl : 6 ≤ size.toNat) (hwf : s.rxbuf.wf) : (decbody Config.hardware s).2 = true :=
  (decbody_accepts_iff hwf).2 (h.bodyChecksum_eq hs hpt hread hl)

theorem FrameOf.read_decbody (hwf : s.rxbuf.wf) {a : Nat} (h6 : 6 ≤ a) (ha : a < size.toNat) :
    (decbody Config.hardware s).1.rxbuf.read a = plain a := by
  obtain ⟨m, hdecbody, hm⟩ := decbody_hardware hwf
  rw [hdecbody, ← h.bodyPlain_eq hs hpt hread h6 ha]
  exact (hm a).trans (if_pos ⟨h6, by rwa [hs.toNat_blen]⟩)

end

end Sys2Proof.Machine

namespace Sys2Proof.Proofs

open Sys2Proof.Machine

/-- Settles O54: the frame's header is decoded to the record it was made of, and its body to the plain bytes that its checksum is
over. -/
theorem streamCodecRoundTrip : Obligations.StreamCodecRoundTrip := by
  unfold Obligations.StreamCodecRoundTrip
  intro size c tx sent rx hl hf hk ht hwf hsent hrf hrk hra hrwf hrl hpt hdir hread
  obtain rfl := Host.Outcome.next.inj ((exec_encrypt hf hk ht hl).symm.trans hsent)
  have hframe := frameOf_encryptFrame (c := c) tx hl hwf
  have hloaded := hframe.headerLoaded_dechdr hpt hdir fun a ha => hread a (by omega)
  have hanswer : (dechdr Config.hardware rx).blen.setWidth 32 = size.setWidth 32 := by
    rw [hloaded.blen, BitVec.setWidth_setWidth (by decide)]
  have hdechdr := exec_dechdr hrf hrk hra (hrl ▸ hl)
  rw [hanswer] at hdechdr
  have hloaded' := hloaded.respond stOk (size.setWidth 32)
  have hwf' := wf_dechdr Config.hardware hrwf
  have hrest (a : Nat) (h5 : 5 ≤ a) (ha : a < size.toNat) :
      (dechdr Config.hardware rx).rxbuf.read a = (encryptFrame Config.hardware size c tx).txbuf.read a :=
    (read_dechdr_of_ge _ hrwf h5).trans (hread a ha)
  have hbuffered : (dechdr Config.hardware rx).bodyBuffered = true := by
    rw [bodyBuffered_iff, hloaded.toNat_blen, dechdr_rxlen, hrl]
    exact ⟨hl, le_refl _⟩
  have hdecbody := exec_decbody (s := (dechdr Config.hardware rx).respond stOk (size.setWidth 32)) hrf hrk hra hbuffered
  rw [if_pos (hframe.decbody_accepts hloaded' hpt hrest hl hwf')] at hdecbody
  exact ⟨_, _, hdechdr, rfl, hloaded.blen, hloaded.cmd, hloaded.tsalt, hloaded.rsalt, hloaded.kval, hloaded.dlen, hdecbody,
    rfl, fun a h6 ha => hframe.read_decbody hloaded' hpt hrest hwf' h6 ha⟩

end Sys2Proof.Proofs
end

section
/-! PROOFS. A frame sent by `TXSEND` and received byte by byte (spec/43_stream_cipher.md R162, spec/44_framer.md R170 to R183): what
`RXPUSH` in AUTO mode does in each of its cases, and what the framer holds after each byte of a frame under the stream codec. -/

namespace Sys2Proof.Machine

open Sys2Proof.Safety

variable {p : Params} {s : State} {b : Byte} {n k : Nat}

/-! ## `RXPUSH` in AUTO mode, case by case (R170 to R172) -/

theorem toNat_rxlen_pushByte (b : Byte) (hl : s.rxlen.toNat < 2047) : (s.pushByte b).rxlen.toNat = s.rxlen.toNat + 1 :=
  BitVec.toNat_add_of_lt (Nat.succ_lt_succ hl)

theorem read_pushByte (hwf : s.rxbuf.wf) (b : Byte) (a : Nat) :
    (s.pushByte b).rxbuf.read a = if a = s.rxlen.toNat then b else s.rxbuf.read a := Memory.read_write hwf a _ b

/-- Under the stream codec with a key schedule, and outside `Ready` and `Failed`, the byte is stored and `advance()` runs. -/
theorem exec_rxpush_auto (ha : s.auto = true) (hc : s.codecAlt = false) (hk : s.ksvalid = true)
    (hf : s.fstate = .awaitHeader ∨ s.fstate = .awaitBody) (hl : s.rxlen.toNat < 2047) :
    exec (.rxpush b) s = advance Config.hardware (s.pushByte b) := by
  show rxpushCommand Config.hardware b s = _
  have hlive : s.fstate ≠ .failed ∧ s.fstate ≠ .ready := by
    rcases hf with hf | hf <;> simp [hf]
  simp [rxpushCommand, hlive, ha, hc, hk, Config.bufcap, Nat.not_le.2 hl]

theorem advance_of_no_header (h : ¬ (s.fstate = .awaitHeader ∧ 6 ≤ s.rxlen.toNat)) :
    advance p s = bodyTransition p s := if_neg h

theorem advance_of_header (hf : s.fstate = .awaitHeader) (h6 : 6 ≤ s.rxlen.toNat) (hge : 6 ≤ (runHeader p s).blen.toNat)
    (hle : (runHeader p s).blen.toNat ≤ 2047) :
    advance p s = bodyTransition p ((runHeader p s).awaitBody (runHeader p s).blen) := by
  rw [advance, if_pos ⟨hf, h6⟩, if_neg (by rw [Config.bufcap]; omega)]

theorem bodyTransition_of_no_body (h : ¬ (s.fstate = .awaitBody ∧ s.need.toNat ≤ s.rxlen.toNat)) :
    bodyTransition p s = .next (s.respond stOk (s.fstate.code.setWidth 32)) := if_neg h

theorem bodyTransition_of_accepted (hf : s.fstate = .awaitBody) (hn : s.need.toNat ≤ s.rxlen.toNat)
    (hb : s.bodyBuffered = true) (hr : (runBody p s).2 = true) :
    bodyTransition p s = .next ((runBody p s).1.becomeReady.respond stOk 2) := by
  rw [bodyTransition, if_pos ⟨hf, hn⟩, if_pos hb, if_pos hr]
  rfl

/-! ## Bytes pushed one after another -/

/-- A property of the bytes pushed so far that each byte carries on holds after all of them. -/
theorem pushAll_map_range' {P : Nat → State → Prop} {frame : Nat → Byte} {i : Nat}
    (hstep : ∀ k s, i ≤ k → k < i + n → P k s → ∃ t, exec (.rxpush (frame k)) s = .next t ∧ P (k + 1) t) (hs : P i s) :
    ∃ t, pushAll ((List.range' i n).map frame) s = .next t ∧ P (i + n) t := by
  induction n generalizing i s with
  | zero => exact ⟨s, rfl, hs⟩
  | succ n ih =>
    obtain ⟨u, hpush, hu⟩ := hstep i s (le_refl i) (by omega) hs
    obtain ⟨t, hrest, ht⟩ := ih (fun k s hk hlt => hstep k s (by omega) (by omega)) hu
    refine ⟨t, ?_, by rwa [← Nat.add_right_comm] at ht⟩
    rw [List.range'_succ, List.map_cons, pushAll, hpush]
    exact hrest

/-! ## A block that listens for frames under the stream codec -/

/-- AUTO mode under the stream codec with the key table `pt`, receiving in direction `d`. -/
structure Listening (pt : Memory 32) (d : Direction) (s : State) : Prop where
  auto : s.auto = true
  stream : s.codecAlt = false
  keyed : s.ksvalid = true
  pt_eq : s.pt = pt
  rxdir_eq : s.rxdir = d
  wf : s.rxbuf.wf

variable {pt : Memory 32} {d : Direction}

theorem Listening.pushByte (h : Listening pt d s) (b : Byte) : Listening pt d (s.pushByte b) :=
  { h with wf := Memory.wf_write h.wf _ b }

theorem Listening.dechdr (h : Listening pt d s) (p : Params) : Listening pt d (dechdr p s) :=
  { h with wf := wf_dechdr p h.wf }

theorem Listening.awaitBody (h : Listening pt d s) (l : BitVec 16) : Listening pt d (s.awaitBody l) := { h with }

theorem Listening.respond (h : Listening pt d s) (st : BitVec 8) (r : BitVec 32) : Listening pt d (s.respond st r) :=
  { h with }

theorem Listening.exec_rxpush (h : Listening pt d s) (hf : s.fstate = .awaitHeader ∨ s.fstate = .awaitBody)
    (hl : s.rxlen.toNat < 2047) : exec (.rxpush b) s = advance Config.hardware (s.pushByte b) :=
  exec_rxpush_auto h.auto h.stream h.keyed hf hl

/-- A byte that completes neither the header nor the body leaves the framer waiting. -/
theorem advance_waits (hh : ¬ (s.fstate = .awaitHeader ∧ 6 ≤ s.rxlen.toNat))
    (hb : ¬ (s.fstate = .awaitBody ∧ s.need.toNat ≤ s.rxlen.toNat)) :
    advance p s = .next (s.respond stOk (s.fstate.code.setWidth 32)) := by
  rw [advance_of_no_header hh, bodyTransition_of_no_body hb]

/-- A complete header of a frame that is longer than what is buffered is decoded, and the framer waits for the rest. -/
theorem Listening.advance_header (h : Listening pt d s) (hf : s.fstate = .awaitHeader) (h6 : 6 ≤ s.rxlen.toNat)
    (hgt : s.rxlen.toNat < (Machine.dechdr p s).blen.toNat) (hle : (Machine.dechdr p s).blen.toNat ≤ 2047) :
    advance p s = .next (((Machine.dechdr p s).awaitBody (Machine.dechdr p s).blen).respond stOk 1) := by
  have hheader : runHeader p s = Machine.dechdr p s := by rw [runHeader, if_neg (by simp [h.stream])]
  have hwaits : ¬ ((Machine.dechdr p s).blen.toNat ≤ s.rxlen.toNat) := Nat.not_le.2 hgt
  rw [advance_of_header hf h6 (by rw [hheader]; omega) (by rw [hheader]; exact hle), hheader,
    bodyTransition_of_no_body (by simp [hwaits])]
  rfl

/-- A complete body whose checksum matches makes the framer `Ready`. -/
theorem Listening.advance_body (h : Listening pt d s) (hf : s.fstate = .awaitBody) (hn : s.need.toNat ≤ s.rxlen.toNat)
    (hb : s.bodyBuffered = true) (hr : (decbody p s).2 = true) :
    advance p s = .next ((decbody p s).1.becomeReady.respond stOk 2) := by
  have hbody : runBody p s = decbody p s := by rw [runBody, if_neg (by simp [h.stream])]
  rw [← hbody] at hr ⊢
  rw [advance_of_no_header (by simp [hf]), bodyTransition_of_accepted hf hn hb hr]

/-! ## What the framer holds after each byte of a frame (R170 to R172) -/

variable {size c : BitVec 11} {plain frame : Nat → Byte}

/-- The framer awaits a header and has buffered the first `k` bytes of the frame. -/
structure HeaderArriving (pt : Memory 32) (d : Direction) (frame : Nat → Byte) (k : Nat) (s : State) : Prop
    extends Listening pt d s where
  fstate : s.fstate = .awaitHeader
  rxlen : s.rxlen.toNat = k
  read : ∀ a, a < k → s.rxbuf.read a = frame a

/-- The framer has decoded the frame's header and buffered the frame's bytes from 5 to `k`. -/
structure BodyArriving (pt : Memory 32) (d : Direction) (size c : BitVec 11) (frame : Nat → Byte) (k : Nat) (s : State) : Prop
    extends Listening pt d s, HeaderLoaded size c s where
  fstate : s.fstate = .awaitBody
  rxlen : s.rxlen.toNat = k
  need : s.need.toNat = size.toNat
  read : ∀ a, 5 ≤ a → a < k → s.rxbuf.read a = frame a

/-- The frame is accepted, and its plain body is buffered. -/
structure Delivered (size c : BitVec 11) (plain : Nat → Byte) (s : State) : Prop where
  fstate : s.fstate = .ready
  response : s.response = some ⟨stOk, 2⟩
  cmd : s.cmd = c.setWidth 16
  dlen : s.dlen.toNat = size.toNat - 2
  read : ∀ a, 6 ≤ a → a < size.toNat → s.rxbuf.read a = plain a

theorem HeaderArriving.pushByte (h : HeaderArriving pt d frame k s) (hk : k < 2047) :
    HeaderArriving pt d frame (k + 1) (s.pushByte (frame k)) where
  toListening := h.toListening.pushByte _
  fstate := h.fstate
  rxlen := by rw [toNat_rxlen_pushByte _ (by rwa [h.rxlen]), h.rxlen]
  read a ha := by
    rw [read_pushByte h.wf, h.rxlen]
    split
    · next heq => rw [heq]
    · next hne => exact h.read a (by omega)

theorem BodyArriving.pushByte (h : BodyArriving pt d size c frame k s) (hk : k < 2047) :
    BodyArriving pt d size c frame (k + 1) (s.pushByte (frame k)) where
  toListening := h.toListening.pushByte _
  toHeaderLoaded := { h.toHeaderLoaded with }
  fstate := h.fstate
  rxlen := by rw [toNat_rxlen_pushByte _ (by rwa [h.rxlen]), h.rxlen]
  need := h.need
  read a h5 ha := by
    rw [read_pushByte h.wf, h.rxlen]
    split
    · next heq => rw [heq]
    · next hne => exact h.read a h5 (by omega)

theorem HeaderArriving.push (h : HeaderArriving pt d frame k s) (hk : k + 1 < 6) :
    ∃ t, exec (.rxpush (frame k)) s = .next t ∧ HeaderArriving pt d frame (k + 1) t := by
  have hu := h.pushByte (by omega)
  refine ⟨(s.pushByte (frame k)).respond stOk 0, ?_, { hu with toListening := hu.toListening.respond _ _ }⟩
  rw [h.exec_rxpush (.inl h.fstate) (by rw [h.rxlen]; omega), advance_waits (by rw [hu.rxlen]; omega) (by simp [h.fstate]),
    hu.fstate]
  rfl

/-- The sixth byte completes the header, from which the framer learns that the frame is longer. -/
theorem HeaderArriving.push_sixth (h : HeaderArriving pt d frame 5 s) (hframe : FrameOf pt d size c plain frame)
    (hsize : 6 < size.toNat) :
    ∃ t, exec (.rxpush (frame 5)) s = .next t ∧ BodyArriving pt d size c frame 6 t := by
  have hu := h.pushByte (by omega)
  have hloaded := hframe.headerLoaded_dechdr hu.pt_eq hu.rxdir_eq fun a ha => hu.read a (by omega)
  have hblen := hloaded.toNat_blen
  have hpush : exec (.rxpush (frame 5)) s = _ := (h.exec_rxpush (.inl h.fstate) (by rw [h.rxlen]; omega)).trans
    (hu.advance_header hu.fstate (by rw [hu.rxlen]) (by rw [hu.rxlen, hblen]; exact hsize) (by rw [hblen]; omega))
  exact ⟨_, hpush, ((hu.toListening.dechdr _).awaitBody _).respond _ _, { hloaded with }, rfl, hu.rxlen, hblen,
    fun a h5 ha => (read_dechdr_of_ge Config.hardware hu.wf h5).trans (hu.read a ha)⟩

theorem BodyArriving.push (h : BodyArriving pt d size c frame k s) (hk : k + 1 < size.toNat) :
    ∃ t, exec (.rxpush (frame k)) s = .next t ∧ BodyArriving pt d size c frame (k + 1) t := by
  have hu := h.pushByte (by omega)
  refine ⟨(s.pushByte (frame k)).respond stOk 1, ?_,
    { hu with toListening := hu.toListening.respond _ _, toHeaderLoaded := hu.toHeaderLoaded.respond _ _ }⟩
  rw [h.exec_rxpush (.inr h.fstate) (by rw [h.rxlen]; omega),
    advance_waits (by simp [h.fstate]) (by rw [hu.rxlen, hu.need]; omega), hu.fstate]
  rfl

/-- The last byte completes the body, which `decbody()` accepts. -/
theorem BodyArriving.push_last (h : BodyArriving pt d size c frame k s) (hframe : FrameOf pt d size c plain frame)
    (h6 : 6 ≤ k) (hk : k + 1 = size.toNat) :
    ∃ t, exec (.rxpush (frame k)) s = .next t ∧ Delivered size c plain t := by
  have hu := h.pushByte (by omega)
  rw [hk] at hu
  have hbuffered : (s.pushByte (frame k)).bodyBuffered = true := by
    rw [bodyBuffered_iff, hu.rxlen, hu.toNat_blen]
    omega
  have haccepts := hframe.decbody_accepts hu.toHeaderLoaded hu.pt_eq hu.read (by omega) hu.wf
  have hpush : exec (.rxpush (frame k)) s = _ := (h.exec_rxpush (.inr h.fstate) (by rw [h.rxlen]; omega)).trans
    (hu.advance_body hu.fstate (by rw [hu.rxlen, hu.need]) hbuffered haccepts)
  exact ⟨_, hpush, rfl, rfl, by simpa using hu.cmd, by simpa using hu.dlen,
    fun a h6 ha => hframe.read_decbody hu.toHeaderLoaded hu.pt_eq hu.read hu.wf h6 ha⟩

/-- What the framer holds after `k` bytes of the frame. -/
inductive Received (pt : Memory 32) (d : Direction) (size c : BitVec 11) (plain frame : Nat → Byte) : Nat → State → Prop where
  | header {k : Nat} {s : State} : k < 6 → HeaderArriving pt d frame k s → Received pt d size c plain frame k s
  | body {k : Nat} {s : State} : 6 ≤ k → k < size.toNat → BodyArriving pt d size c frame k s →
      Received pt d size c plain frame k s
  | frame {s : State} : Delivered size c plain s → Received pt d size c plain frame size.toNat s

theorem Received.push (h : Received pt d size c plain frame k s) (hframe : FrameOf pt d size c plain frame)
    (hsize : 6 < size.toNat) (hk : k < size.toNat) :
    ∃ t, exec (.rxpush (frame k)) s = .next t ∧ Received pt d size c plain frame (k + 1) t := by
  cases h with
  | header h6 harriving =>
    rcases Nat.lt_or_eq_of_le h6 with hlt | heq
    · obtain ⟨t, hpush, ht⟩ := harriving.push hlt
      exact ⟨t, hpush, .header hlt ht⟩
    · obtain rfl : k = 5 := Nat.succ.inj heq
      obtain ⟨t, hpush, ht⟩ := harriving.push_sixth hframe hsize
      exact ⟨t, hpush, .body (le_refl 6) hsize ht⟩
  | body h6 _ harriving =>
    rcases Nat.lt_or_eq_of_le hk with hlt | heq
    · obtain ⟨t, hpush, ht⟩ := harriving.push hlt
      exact ⟨t, hpush, .body (by omega) hlt ht⟩
    · obtain ⟨t, hpush, ht⟩ := harriving.push_last hframe h6 heq
      refine ⟨t, hpush, ?_⟩
      rw [← Nat.succ_eq_add_one, heq]
      exact .frame ht
  | frame => exact absurd hk (lt_irrefl _)

/-- All the bytes of a frame, pushed into a block that listens at the start of a frame, deliver it. -/
theorem FrameOf.pushAll_delivers (hframe : FrameOf pt d size c plain frame) (hsize : 6 < size.toNat) (h : Listening pt d s)
    (hf : s.fstate = .awaitHeader) (hl : s.rxlen = 0) :
    ∃ t, pushAll ((List.range' 0 size.toNat).map frame) s = .next t ∧ Delivered size c plain t := by
  have hstart : Received pt d size c plain frame 0 s :=
    .header (by decide) { h with fstate := hf, rxlen := by simp [hl], read := fun a ha => absurd ha (Nat.not_lt_zero a) }
  obtain ⟨t, hpushed, ht⟩ :=
    pushAll_map_range' (n := size.toNat) (fun k s _ hk hs => hs.push hframe hsize (by omega)) hstart
  refine ⟨t, hpushed, ?_⟩
  rw [Nat.zero_add] at ht
  cases ht with
  | header h6 => omega
  | body _ hlt => exact absurd hlt (lt_irrefl _)
  | frame ht => exact ht

/-! ## The sender's and the reader's ends (R174, R179) -/

/-- `TXSEND` under the stream codec where every check of its rule passes: the plain frame, padded by two bytes, encrypted. -/
theorem exec_txsend_stream {n c : BitVec 11} (hf : s.fstate ≠ .failed) (hc : s.codecAlt = false) (hk : s.ksvalid = true)
    (ht : s.txlen = 0) (hn : n.toNat ≤ 2039) :
    ∃ size : BitVec 11, size.toNat = n.toNat + 8 ∧ exec (.txsend n c) s =
      .next ((encryptFrame Config.hardware size c (plainFrame n c s)).respond stOk (size.setWidth 32)) := by
  have hsize : s.frameSize n = n.toNat + 8 := by
    rw [State.frameSize, padding_stream hc]
    omega
  refine ⟨BitVec.ofNat 11 (s.frameSize n), ?_, ?_⟩
  · rw [hsize, BitVec.toNat_ofNat]
    omega
  · show txsendCommand Config.hardware n c s = _
    have hfits : ¬ (2047 < s.frameSize n) := by omega
    simp [txsendCommand, hf, hc, hk, ht, Config.bufcap, hfits, complete]

theorem exec_rxpkt_ready (hf : s.fstate = .ready) :
    exec .rxpkt s = .next (s.respond stOk (s.cmd.setWidth 32 ||| BitVec.ofNat 32 s.payloadLength <<< 16)) := by
  show execRxpkt s = _
  simp [execRxpkt, hf, complete]

end Sys2Proof.Machine

namespace Sys2Proof.Proofs

open Sys2Proof.Machine

/-- Settles O56: the frame that `TXSEND` encrypts is received byte by byte up to `Ready`, its payload is the plain frame's from
byte 6 on, and the packet report reads the command id and the length of the payload without the padding. -/
theorem sentPayloadIsDelivered : Obligations.SentPayloadIsDelivered := by
  unfold Obligations.SentPayloadIsDelivered
  intro n c tx sent rx hn hf hc hk ht hwf hsent hrf hrl hra hrc hrk hrwf hpt hdir
  obtain ⟨size, hsize, hexec⟩ := exec_txsend_stream (c := c) hf hc hk ht hn
  obtain rfl := Host.Outcome.next.inj (hexec.symm.trans hsent)
  obtain ⟨m, hplain, hm, _, hpayload, _⟩ := plainFrame_spec tx n c hwf
  have hframe := frameOf_encryptFrame (c := c) (plainFrame n c tx) (size := size) (by omega) (by rwa [hplain])
  obtain ⟨v, hpushed, hv⟩ := hframe.pushAll_delivers (s := rx) (by omega)
    ⟨hra, hrc, hrk, hpt.trans (by simp), hdir.trans (by simp), hrwf⟩ hrf hrl
  rw [hsize] at hpushed
  refine ⟨v, hpushed, hv.response, hv.fstate, ?_, fun a h6 ha => ?_⟩
  · have hlength : v.payloadLength = n.toNat := by
      rw [State.payloadLength, hv.dlen]
      omega
    rw [exec_rxpkt_ready hv.fstate, hlength, hv.cmd, BitVec.setWidth_setWidth (by decide), BitVec.ofNat_toNat]
    rfl
  · rw [hv.read a h6 (by omega), hplain]
    exact hpayload a h6 ha

end Sys2Proof.Proofs
end

section
/-! PROOFS. The framer's commands outside AUTO reception, each where every check of its rule passes: `RXPUSH` in manual mode
(spec/44_framer.md R170), the packet (R174, R175), link loss (R176), and the send buffer (R178, R181). -/

namespace Sys2Proof.Machine

variable {s : State}

/-! ## The fatal-error entry (R203) -/

/-- The fatal-error entry, in the terms of the statements. -/
theorem raiseFatal_eq_afterFatal (s : State) (e : BitVec 3) : raiseFatal s e = .next (afterFatal s e) := rfl

theorem exec_linkdown (hf : s.fstate ≠ .failed) : exec .linkdown s = .next (afterFatal s 1) := by
  rw [exec, execLinkdown, if_neg hf, raiseFatal_eq_afterFatal]

/-! ## `RXPUSH` in manual mode (R170, R184) -/

theorem exec_rxpush_manual (hf : s.fstate ≠ .failed) (ha : s.auto = false) (hl : s.rxlen.toNat < Config.bufcap) (b : Byte) :
    exec (.rxpush b) s = .next ((s.pushByte b).respond stOk (s.fstate.code.setWidth 32)) := by
  rw [exec, execRxpush, rxpushCommand, if_neg hf, if_neg (by simp [ha]), if_neg (Nat.not_le.2 hl)]
  rfl

/-! ## The packet (R174, R175) -/

/-- The two halves of the word that `RXPKT` answers. -/
theorem packetWord_halves (c : BitVec 16) (v : Word) :
    (c.setWidth 32 ||| v <<< 16).extractLsb' 0 16 = c ∧
      (c.setWidth 32 ||| v <<< 16).extractLsb' 16 16 = v.setWidth 16 := by
  constructor
  · ext j hj
    simp [hj, show j < 32 by omega]
  · ext j hj
    simp [show 16 + j < 32 by omega, BitVec.getLsbD_eq_getElem (show j < 32 by omega)]

/-- A payload is no longer than `DLEN`, so its length fits the high half. -/
theorem toNat_setWidth_payloadLength (s : State) :
    ((BitVec.ofNat 32 s.payloadLength).setWidth 16).toNat = s.dlen.toNat - 6 := by
  rw [BitVec.setWidth_ofNat_of_le (by decide), BitVec.toNat_ofNat, State.payloadLength]
  omega

/-- The check that `RXPKT` and `RXNEXT` share passes in manual mode and in `Ready`. -/
theorem not_auto_waiting (h : s.auto = false ∨ s.fstate = .ready) : ¬ (s.auto = true ∧ s.fstate ≠ .ready) := by
  rintro ⟨hauto, hwaiting⟩
  rcases h with hmanual | hready
  · simp [hmanual] at hauto
  · exact hwaiting hready

theorem exec_rxpkt (hf : s.fstate ≠ .failed) (h : s.auto = false ∨ s.fstate = .ready) :
    exec .rxpkt s = .next (s.respond stOk (s.cmd.setWidth 32 ||| BitVec.ofNat 32 s.payloadLength <<< 16)) := by
  rw [exec, execRxpkt, if_neg hf, if_neg (not_auto_waiting h), complete]

theorem exec_rxnext (hf : s.fstate ≠ .failed) (h : s.auto = false ∨ s.fstate = .ready) :
    exec .rxnext s = .next (s.releaseFrame.respond stOk 0) := by
  rw [exec, execRxnext, if_neg hf, if_neg (not_auto_waiting h), complete]

/-! ## The send buffer (R178, R181) -/

theorem exec_txwr (hf : s.fstate ≠ .failed) (ht : s.txlen = 0) {a : BitVec 11} (ha : a.toNat < Config.bufcap) (v : Byte) :
    exec (.txwr a v) s = .next ((s.setTxbuf (s.txbuf.write a.toNat v)).respond stOk 0) := by
  rw [exec, execTxwr, if_neg hf, if_neg (not_not.2 ht), if_neg (Nat.not_le.2 ha), complete]

theorem exec_txdone (hf : s.fstate ≠ .failed) (ht : s.txlen ≠ 0) :
    exec .txdone s = .next (((s.setTxlen 0).setTxbuf []).respond stOk 0) := by
  rw [exec, execTxdone, if_neg hf, if_neg ht, complete]

end Sys2Proof.Machine

namespace Sys2Proof.Proofs

open Sys2Proof.Machine

/-- Settles O22: outside AUTO mode the byte is stored, and `advance()` does not run. -/
theorem rxpushAppendsInManualMode : Obligations.RxpushAppendsInManualMode := by
  unfold Obligations.RxpushAppendsInManualMode
  intro b s hf hmanual hl hwf
  exact ⟨(s.pushByte b).rxbuf, exec_rxpush_manual hf hmanual hl b, read_pushByte hwf b⟩

/-- Settles O28: the two commands share their check, which passes; the answer's halves are the command id and the length. -/
theorem packetIsReportedAndReleased : Obligations.PacketIsReportedAndReleased := by
  unfold Obligations.PacketIsReportedAndReleased
  intro s hf hmode
  obtain ⟨hlow, hhigh⟩ := packetWord_halves s.cmd (BitVec.ofNat 32 s.payloadLength)
  refine ⟨⟨_, exec_rxpkt hf hmode, hlow, ?_⟩, exec_rxnext hf hmode⟩
  rw [hhigh, toNat_setWidth_payloadLength]

/-- Settles O29: `LINKDOWN` is the fatal-error entry with code 1. -/
theorem linkdownRaisesConnectionLost : Obligations.LinkdownRaisesConnectionLost := by
  unfold Obligations.LinkdownRaisesConnectionLost
  exact fun _ hf => exec_linkdown hf

/-- Settles O30: one cell written, or every cell unlisted, which reads 0. -/
theorem sendBufferIsWrittenAndCleared : Obligations.SendBufferIsWrittenAndCleared := by
  unfold Obligations.SendBufferIsWrittenAndCleared
  refine ⟨fun a v s hf ht ha hwf => ?_, fun s hf ht => ?_⟩
  · exact ⟨s.txbuf.write a.toNat v, exec_txwr hf ht ha v, fun b => Memory.read_write hwf b a.toNat v⟩
  · exact ⟨[], exec_txdone hf ht, Memory.read_nil⟩

end Sys2Proof.Proofs
end

section
/-! PROOFS. `RXPUSH` in AUTO mode (spec/44_framer.md R170 to R172): a byte the framer only buffers, the byte that completes a
header and the byte that completes a body, each under both codecs, and the framer's moves (R177). -/

namespace Sys2Proof.Machine

open Sys2Proof.Safety

variable {p : Params} {s t : State} {b : Byte}

/-! ## The byte stored (R170) -/

/-- Where every check of R170 passes the byte is stored and `advance()` runs, under either codec. -/
theorem exec_rxpush_eq_advance (ha : s.auto = true) (hk : s.codecAlt = true ∨ s.ksvalid = true)
    (hf : s.fstate = .awaitHeader ∨ s.fstate = .awaitBody) (hl : s.rxlen.toNat < Config.bufcap) :
    exec (.rxpush b) s = advance Config.hardware (s.pushByte b) := by
  have hfailed : s.fstate ≠ .failed := by rcases hf with hf | hf <;> simp [hf]
  have hready : s.fstate ≠ .ready := by rcases hf with hf | hf <;> simp [hf]
  have hkeyed : ¬ (!s.codecAlt && !s.ksvalid) = true := by rcases hk with hk | hk <;> simp [hk]
  rw [exec, execRxpush, rxpushCommand, if_neg hfailed, if_pos ha, if_neg hkeyed, if_neg hready, if_neg (Nat.not_le.2 hl)]

/-- The wire bytes of the header lie below the byte that completes it. -/
theorem receivedHeader_pushByte (hl : s.rxlen = 5) : receivedHeader (s.pushByte b) = receivedHeader s :=
  receivedHeader_congr rfl rfl fun a ha => Memory.read_write_ne _ (by simp [hl]; omega) b

/-! ## The procedures of the codec in use (R171, R172) -/

theorem runHeader_stream (hc : s.codecAlt = false) : runHeader p s = dechdr p s := if_neg (by simp [hc])

theorem runHeader_alt (hc : s.codecAlt = true) : runHeader p s = adechdr p s := if_pos hc

theorem runBody_stream (hc : s.codecAlt = false) : runBody p s = decbody p s := if_neg (by simp [hc])

theorem runBody_alt (hc : s.codecAlt = true) : runBody p s = (adecbody p s, true) := if_pos hc

/-! ## The header transition (R171) -/

theorem advance_of_bad_length (hf : s.fstate = .awaitHeader) (h6 : 6 ≤ s.rxlen.toNat)
    (hbad : (runHeader p s).blen.toNat < 6 ∨ 2047 < (runHeader p s).blen.toNat) :
    advance p s = .next (afterFatal (runHeader p s) 2) := by
  rw [advance, if_pos ⟨hf, h6⟩, if_pos (by rwa [Config.bufcap]), raiseFatal_eq_afterFatal]

/-- The header of a frame that is longer than what is buffered: the framer waits for the rest. -/
theorem advance_of_longer (hf : s.fstate = .awaitHeader) (h6 : 6 ≤ s.rxlen.toNat)
    (hgt : s.rxlen.toNat < (runHeader p s).blen.toNat) (hle : (runHeader p s).blen.toNat ≤ 2047) :
    advance p s = .next (((runHeader p s).awaitBody (runHeader p s).blen).respond stOk 1) := by
  rw [advance_of_header hf h6 (by omega) hle, bodyTransition_of_no_body (by simp [hgt])]
  rfl

/-! ## The body transition (R172) -/

/-- The stream codec's body transition: `Ready` or `DecryptBodyFailed`, as the checksum is byte 5 or not. -/
theorem bodyTransition_stream (hc : s.codecAlt = false) (hf : s.fstate = .awaitBody) (hn : s.need.toNat ≤ s.rxlen.toNat)
    (hb : s.bodyBuffered = true) (hwf : s.rxbuf.wf) :
    bodyTransition Config.hardware s =
      if bodyChecksum s s.rxbuf s.blen.toNat = s.rxbuf.read 5 then
        .next ((decbody Config.hardware s).1.becomeReady.respond stOk 2)
      else .next (afterFatal (decbody Config.hardware s).1 3) := by
  rw [bodyTransition, if_pos ⟨hf, hn⟩, if_pos hb, runBody_stream hc, raiseFatal_eq_afterFatal]
  simp only [decbody_accepts_iff hwf]
  rfl

/-- The ALT codec's body transition accepts whatever the bytes are. -/
theorem bodyTransition_alt (hc : s.codecAlt = true) (hf : s.fstate = .awaitBody) (hn : s.need.toNat ≤ s.rxlen.toNat)
    (hb : s.bodyBuffered = true) :
    bodyTransition p s = .next ((adecbody p s).becomeReady.respond stOk 2) := by
  rw [bodyTransition_of_accepted hf hn hb (by rw [runBody_alt hc]), runBody_alt hc]

/-- A frame of 6 bytes has no body to decrypt. -/
theorem decbody_of_no_body (h : s.blen = 6) : (decbody p s).1 = s := by
  rw [decbody, h]
  rfl

theorem adecbody_of_no_body (h : s.blen = 6) : adecbody p s = s := by
  rw [adecbody, h]
  rfl

/-- The sixth byte of a 6-byte frame leaves nothing to wait for. -/
theorem body_due_of_six (hl : s.rxlen = 6) (hb : s.blen = 6) :
    (s.awaitBody 6).need.toNat ≤ (s.awaitBody 6).rxlen.toNat ∧ (s.awaitBody 6).bodyBuffered = true := by
  rw [bodyBuffered_iff, State.awaitBody_need, State.awaitBody_rxlen, State.awaitBody_blen, hl, hb]
  decide

/-- A frame of 6 bytes under the stream codec is verified by its header's checksum alone. -/
theorem bodyTransition_stream_of_six (hc : s.codecAlt = false) (hl : s.rxlen = 6) (hb : s.blen = 6) (hwf : s.rxbuf.wf) :
    bodyTransition Config.hardware (s.awaitBody 6) =
      if s.ck = s.rxbuf.read 5 then .next ((s.awaitBody 6).becomeReady.respond stOk 2)
      else .next (afterFatal (s.awaitBody 6) 3) := by
  obtain ⟨hdue, hbuffered⟩ := body_due_of_six hl hb
  have hb' : (s.awaitBody 6).blen = 6 := hb
  rw [bodyTransition_stream (s := s.awaitBody 6) hc rfl hdue hbuffered hwf, decbody_of_no_body hb', hb']
  rfl

/-- A frame of 6 bytes under the ALT codec is complete with its header. -/
theorem bodyTransition_alt_of_six (hc : s.codecAlt = true) (hl : s.rxlen = 6) (hb : s.blen = 6) :
    bodyTransition p (s.awaitBody 6) = .next ((s.awaitBody 6).becomeReady.respond stOk 2) := by
  obtain ⟨hdue, hbuffered⟩ := body_due_of_six hl hb
  rw [bodyTransition_alt (s := s.awaitBody 6) hc rfl hdue hbuffered, adecbody_of_no_body (s := s.awaitBody 6) hb]

/-! ## The byte that completes a header -/

theorem read_pushByte_sixth (hl : s.rxlen = 5) (hwf : s.rxbuf.wf) (b : Byte) (a : Nat) :
    (s.pushByte b).rxbuf.read a = if a = 5 then b else s.rxbuf.read a := by
  rw [read_pushByte hwf, hl]
  rfl

/-- What `dechdr()` leaves once the sixth byte is stored (R156). -/
theorem dechdr_of_sixth_byte (hl : s.rxlen = 5) (hwf : s.rxbuf.wf) (b : Byte) :
    ∃ m, dechdr Config.hardware (s.pushByte b) = { withHeader s (receivedHeader s) with rxbuf := m, rxlen := 6 } ∧ m.wf ∧
      PrologueOf (receivedHeader s) m ∧ m.read 5 = b ∧ ∀ a, 6 ≤ a → m.read a = s.rxbuf.read a := by
  have hwfu : (s.pushByte b).rxbuf.wf := Memory.wf_write hwf _ b
  have hread (a : Nat) (ha : 5 ≤ a) :
      (dechdr Config.hardware (s.pushByte b)).rxbuf.read a = if a = 5 then b else s.rxbuf.read a := by
    rw [read_dechdr_of_ge _ hwfu ha, read_pushByte_sixth hl hwf]
  have hdechdr : dechdr Config.hardware (s.pushByte b) =
      { withHeader s (receivedHeader (s.pushByte b)) with
        rxbuf := (dechdr Config.hardware (s.pushByte b)).rxbuf, rxlen := s.rxlen + 1 } := rfl
  rw [receivedHeader_pushByte hl, hl] at hdechdr
  refine ⟨_, hdechdr, wf_dechdr _ hwfu, receivedHeader_pushByte (b := b) hl ▸ prologueOf_dechdr hwfu, ?_, fun a ha => ?_⟩
  · rw [hread 5 (le_refl 5), if_pos rfl]
  · rw [hread a (by omega), if_neg (by omega)]

/-- What `adechdr()` leaves once the sixth byte is stored (R191). -/
theorem adechdr_of_sixth_byte (hl : s.rxlen = 5) (hwf : s.rxbuf.wf) (b : Byte) :
    ∃ (m : Memory 8) (l : BitVec 16), l = s.rxbuf.read 1 ++ s.rxbuf.read 0 ∧
      adechdr p (s.pushByte b) = { s with
        blen := l, cmd := m.read 3 ++ m.read 2, tsalt := 0, rsalt := 0, kval := 0, dlen := l, ck := 0
        rxbuf := m, rxlen := 6 } ∧
      ∀ a, m.read a = if a = 5 then b ^^^ p.altx else if 2 ≤ a ∧ a < 5 then s.rxbuf.read a ^^^ p.altx
        else s.rxbuf.read a := by
  have hread := read_pushByte_sixth hl hwf b
  obtain ⟨m, hadechdr, -, hm⟩ := adechdr_spec p (s.pushByte b) (Memory.wf_write hwf _ b)
  rw [hread 0, hread 1, if_neg (by decide), if_neg (by decide)] at hadechdr
  refine ⟨m, _, rfl, ?_, fun a => ?_⟩
  · have hlen : s.rxlen + 1 = 6 := by rw [hl]; rfl
    rw [hadechdr, ← hlen]
    rfl
  · rw [hm, hread]
    by_cases h5 : a = 5
    · simp [h5]
    · simp only [h5, if_false, show (2 ≤ a ∧ a < 6) ↔ (2 ≤ a ∧ a < 5) by omega]

/-- The sixth byte of a frame, in the three cases of the length `l` its header gives (R171). -/
theorem exec_rxpush_sixth_byte {h : State} {l : BitVec 16} (ha : s.auto = true) (hk : s.codecAlt = true ∨ s.ksvalid = true)
    (hf : s.fstate = .awaitHeader) (hl : s.rxlen = 5) (hheader : runHeader Config.hardware (s.pushByte b) = h)
    (hblen : h.blen = l) :
    (l.toNat < 6 ∨ 2047 < l.toNat → exec (.rxpush b) s = .next (afterFatal h 2)) ∧
    (6 < l.toNat → l.toNat ≤ 2047 → exec (.rxpush b) s = .next ((h.awaitBody l).respond stOk 1)) ∧
    (l.toNat = 6 → exec (.rxpush b) s = bodyTransition Config.hardware (h.awaitBody 6)) := by
  subst hblen hheader
  have hfu : (s.pushByte b).fstate = .awaitHeader := hf
  have h6 : (s.pushByte b).rxlen.toNat = 6 := by rw [toNat_rxlen_pushByte b (by simp [hl]), hl]; rfl
  rw [exec_rxpush_eq_advance ha hk (.inl hf) (by simp [hl, Config.bufcap])]
  refine ⟨fun hbad => ?_, fun hgt hle => ?_, fun heq => ?_⟩
  · exact advance_of_bad_length hfu h6.ge hbad
  · exact advance_of_longer hfu h6.ge (by omega) hle
  · have hsix : (runHeader Config.hardware (s.pushByte b)).blen = 6 := BitVec.eq_of_toNat_eq heq
    rw [advance_of_header hfu h6.ge (by omega) (by omega), hsix]

/-! ## The byte that completes a body -/

/-- The last byte of a frame longer than 6 bytes runs the body transition, and the bytes its procedure needs are there. -/
theorem exec_rxpush_last_byte (ha : s.auto = true) (hk : s.codecAlt = true ∨ s.ksvalid = true) (hf : s.fstate = .awaitBody)
    (h6 : 6 ≤ s.rxlen.toNat) (hlast : s.rxlen.toNat + 1 = s.need.toNat) (hneed : s.need = s.blen)
    (hle : s.need.toNat ≤ 2047) :
    exec (.rxpush b) s = bodyTransition Config.hardware (s.pushByte b) ∧
      (s.pushByte b).need.toNat ≤ (s.pushByte b).rxlen.toNat ∧ (s.pushByte b).bodyBuffered = true := by
  have hl : s.rxlen.toNat < 2047 := by omega
  have hlen : (s.pushByte b).rxlen.toNat = s.need.toNat := (toNat_rxlen_pushByte b hl).trans hlast
  refine ⟨?_, hlen.ge, ?_⟩
  · rw [exec_rxpush_eq_advance ha hk (.inr hf) hl, advance_of_no_header (by simp [hf])]
  · have hblen : (s.pushByte b).blen.toNat = s.need.toNat := by rw [hneed, State.pushByte_blen]
    rw [bodyBuffered_iff, hlen, hblen]
    omega

/-! ## The framer's moves (R177) -/

/-- `advance()` moves the framer by a complete header, or by a complete body to one of two states. -/
theorem advance_moves (h : advance p s = .next t) (hmoves : t.fstate ≠ s.fstate) :
    (s.fstate = .awaitHeader ∧ 6 ≤ s.rxlen.toNat) ∨
    (s.fstate = .awaitBody ∧ s.need.toNat ≤ s.rxlen.toNat ∧ (t.fstate = .ready ∨ t.fstate = .failed)) := by
  rcases advance_cases h with ⟨_, hbody⟩ | ⟨hheader, _⟩
  · rcases bodyTransition_cases hbody with ⟨_, rfl⟩ | ⟨⟨hf, hdue⟩, _, ⟨_, rfl⟩ | ⟨_, rfl⟩⟩
    · simp at hmoves
    · exact .inr ⟨hf, hdue, .inl (by simp)⟩
    · exact .inr ⟨hf, hdue, .inr (by simp)⟩
  · exact .inl hheader

end Sys2Proof.Machine

namespace Sys2Proof.Proofs

open Sys2Proof.Machine Sys2Proof.Safety

/-- Settles O23: the byte completes neither the header nor the body, whatever the codec. -/
theorem rxpushBuffersUntilNeeded : Obligations.RxpushBuffersUntilNeeded := by
  unfold Obligations.RxpushBuffersUntilNeeded
  intro b s ha hk hwf hl hwaits
  have hf : s.fstate = .awaitHeader ∨ s.fstate = .awaitBody := hwaits.imp And.left And.left
  have hlen := toNat_rxlen_pushByte b hl
  have hheader : ¬ ((s.pushByte b).fstate = .awaitHeader ∧ 6 ≤ (s.pushByte b).rxlen.toNat) := by
    rcases hwaits with ⟨_, hlt⟩ | ⟨hf, _⟩
    · omega
    · simp [hf]
  have hbody : ¬ ((s.pushByte b).fstate = .awaitBody ∧ (s.pushByte b).need.toNat ≤ (s.pushByte b).rxlen.toNat) := by
    rcases hwaits with ⟨hf, _⟩ | ⟨_, hlt⟩
    · simp [hf]
    · rw [hlen]
      exact fun h => Nat.not_le.2 hlt h.2
  have hcode : s.fstate.code.setWidth 32 = (if s.fstate = .awaitHeader then 0 else 1 : Word) := by
    rcases hf with hf | hf <;> rw [hf] <;> rfl
  refine ⟨(s.pushByte b).rxbuf, ?_, read_pushByte hwf b⟩
  rw [exec_rxpush_eq_advance ha hk hf hl, advance_waits hheader hbody, State.pushByte_fstate, hcode]
  rfl

/-- Settles O24: the header the sixth byte completes, in its three cases; a frame of exactly 6 bytes has a checksum over its
header alone. -/
theorem rxpushDecodesStreamHeader : Obligations.RxpushDecodesStreamHeader := by
  unfold Obligations.RxpushDecodesStreamHeader
  intro b s ha hc hk hf hl hwf
  obtain ⟨m, hdechdr, hm, hprologue, h5, hrest⟩ := dechdr_of_sixth_byte hl hwf b
  have hheader := (runHeader_stream (s := s.pushByte b) hc).trans hdechdr
  obtain ⟨hbad, hlonger, hsix⟩ := exec_rxpush_sixth_byte ha (.inr hk) hf hl hheader rfl
  have hlen : (((receivedHeader s).extractLsb' 29 11).setWidth 16).toNat = ((receivedHeader s).extractLsb' 29 11).toNat :=
    BitVec.toNat_setWidth_of_le (by decide)
  refine ⟨m, hprologue, h5, hrest, fun hlt => ?_, fun hgt => ?_, fun heq => ?_⟩
  · exact hbad (.inl (hlen.trans_lt hlt))
  · exact hlonger (hgt.trans_eq hlen.symm) (hlen.trans_le (by omega))
  · have hlen6 : ((receivedHeader s).extractLsb' 29 11).setWidth 16 = (6 : BitVec 16) :=
      BitVec.eq_of_toNat_eq (hlen.trans heq)
    subst h5
    exact (hsix (hlen.trans heq)).trans (bodyTransition_stream_of_six hc rfl hlen6 hm)

/-- Settles O25: the byte completes the body, which `decbody()` decrypts and verifies; byte 5 came earlier. -/
theorem rxpushVerifiesStreamBody : Obligations.RxpushVerifiesStreamBody := by
  unfold Obligations.RxpushVerifiesStreamBody
  intro b s ha hc hk hf h6 hlast hneed hle hwf
  obtain ⟨hpush, hdue, hbuffered⟩ := exec_rxpush_last_byte (b := b) ha (.inr hk) hf h6 hlast hneed hle
  have hwfu : (s.pushByte b).rxbuf.wf := Memory.wf_write hwf _ b
  obtain ⟨m, hdecbody, hm⟩ := decbody_hardware hwfu
  have h5 : (s.pushByte b).rxbuf.read 5 = s.rxbuf.read 5 := Memory.read_write_ne _ (by omega) b
  refine ⟨(s.pushByte b).rxbuf, m, read_pushByte hwf b, hm, ?_⟩
  rw [hpush, bodyTransition_stream (s := s.pushByte b) hc hf hdue hbuffered hwfu, hdecbody, h5]
  rfl

/-- Settles O26: the header the sixth byte completes, in its three cases; a frame of exactly 6 bytes has no body. -/
theorem rxpushDecodesAltHeader : Obligations.RxpushDecodesAltHeader := by
  unfold Obligations.RxpushDecodesAltHeader
  intro b s ha hc hf hl hwf
  obtain ⟨m, l, hlength, hadechdr, hm⟩ := adechdr_of_sixth_byte (p := Config.hardware) hl hwf b
  have hheader := (runHeader_alt (s := s.pushByte b) hc).trans hadechdr
  obtain ⟨hbad, hlonger, hsix⟩ := exec_rxpush_sixth_byte ha (.inl hc) hf hl hheader rfl
  refine ⟨m, l, _, hlength, hm, rfl, hbad, hlonger, fun heq => ?_⟩
  exact (hsix heq).trans (bodyTransition_alt_of_six hc rfl (BitVec.eq_of_toNat_eq heq))

/-- Settles O27: the byte completes the body, whose bytes `adecbody()` does not look at. -/
theorem rxpushCompletesAltBody : Obligations.RxpushCompletesAltBody := by
  unfold Obligations.RxpushCompletesAltBody
  intro b s ha hc hf h6 hlast hneed hle hwf
  obtain ⟨hpush, hdue, hbuffered⟩ := exec_rxpush_last_byte (b := b) ha (.inl hc) hf h6 hlast hneed hle
  obtain ⟨m, hadecbody, -, hm⟩ := adecbody_spec Config.hardware (s.pushByte b) (Memory.wf_write hwf _ b)
  refine ⟨(s.pushByte b).rxbuf, m, read_pushByte hwf b, hm, ?_⟩
  rw [hpush, bodyTransition_alt (s := s.pushByte b) hc hf hdue hbuffered, hadecbody]
  rfl

/-- Settles O51: of the commands, those that write `FSTATE` in AUTO mode are `RXPUSH`, `RXNEXT`, `LINKDOWN` and `RESET`. -/
theorem framerMoves : Obligations.FramerMoves := by
  unfold Obligations.FramerMoves
  intro i s t hexec ha hmoves
  cases exec_cases hexec with
  | rxpushAuto b _ _ _ _ _ _ hl hadv =>
    have hlen := toNat_rxlen_pushByte b hl
    rcases advance_moves hadv hmoves with ⟨hf, h6⟩ | ⟨hf, hdue, hend⟩
    · exact .inl ⟨⟨b, rfl⟩, hf, hlen ▸ h6⟩
    · exact .inr (.inl ⟨⟨b, rfl⟩, hf, hlen ▸ hdue, hend⟩)
  | rxnext _ _ hready => exact .inr (.inr (.inl ⟨rfl, hready ha, rfl⟩))
  | linkdown => exact .inr (.inr (.inr (.inl ⟨rfl, rfl⟩)))
  | reset => exact .inr (.inr (.inr (.inr ⟨rfl, rfl⟩)))
  -- Every other effect is a chain of updates of other fields.
  | _ => simp at hmoves

end Sys2Proof.Proofs
end

section
/-! PROOFS. `TXSEND` under both codecs (spec/44_framer.md R179): the plain frame it lays out, then what `encrypt()` and
`aencrypt()` make of it, byte by byte in terms of the payload in `TXBUF`. -/

namespace Sys2Proof.Machine

open Sys2Proof.Safety

variable {s : State} {n c : BitVec 11}

/-! ## The command where every check of its rule passes -/

theorem frameSize_stream (hc : s.codecAlt = false) (n : BitVec 11) : s.frameSize n = n.toNat + 8 := by
  rw [State.frameSize, padding_stream hc]
  omega

theorem frameSize_alt (hc : s.codecAlt = true) (n : BitVec 11) : s.frameSize n = n.toNat + 6 := by
  rw [State.frameSize, padding_alt hc]
  omega

theorem exec_txsend_alt (hf : s.fstate ≠ .failed) (hc : s.codecAlt = true) (ht : s.txlen = 0) (hn : n.toNat ≤ 2041) :
    ∃ size : BitVec 11, size.toNat = n.toNat + 6 ∧ exec (.txsend n c) s =
      .next ((aencryptFrame Config.hardware size (plainFrame n c s)).respond stOk (size.setWidth 32)) := by
  have hsize := frameSize_alt hc n
  have hfits : ¬ Config.bufcap < s.frameSize n := by rw [hsize, Config.bufcap]; omega
  refine ⟨BitVec.ofNat 11 (s.frameSize n), ?_, ?_⟩
  · rw [hsize, BitVec.toNat_ofNat]
    omega
  · rw [exec, execTxsend, txsendCommand, if_neg hf, if_neg (by simp [hc]), if_neg (not_not.2 ht), if_neg hfits]
    simp only [hc, if_true, complete]

/-! ## The bytes of the plain frame under each codec -/

/-- The plain frame under the stream codec from byte 6 on: the payload, two zero bytes, and the rest left alone. -/
theorem plainFrame_stream (hc : s.codecAlt = false) (n c : BitVec 11) (hwf : s.txbuf.wf) :
    ∃ m, plainFrame n c s = s.setTxbuf m ∧ m.wf ∧
      (∀ a, 6 ≤ a → a < 6 + n.toNat → m.read a = s.txbuf.read a) ∧
      (∀ a, 6 + n.toNat ≤ a → a < n.toNat + 8 → m.read a = 0) ∧
      ∀ a, n.toNat + 8 ≤ a → m.read a = s.txbuf.read a := by
  obtain ⟨m, hplain, hm, -, hpayload, hpad, hrest⟩ := plainFrame_spec s n c hwf
  rw [frameSize_stream hc] at hpad hrest
  exact ⟨m, hplain, hm, hpayload, hpad, hrest⟩

/-- The bytes the checksum of a padded frame is over: the payload's, then the padding's. -/
theorem bytesOf_padded {m m' : Memory 8} {n : Nat} (hpayload : ∀ a, 6 ≤ a → a < 6 + n → m.read a = m'.read a)
    (hpad : ∀ a, 6 + n ≤ a → a < n + 8 → m.read a = 0) : bytesOf m 6 (n + 2) = bytesOf m' 6 n ++ [0, 0] := by
  have hbytes : bytesOf m 6 n = bytesOf m' 6 n := List.map_congr_left fun a ha => by
    rw [List.mem_range'_1] at ha
    exact hpayload a ha.1 ha.2
  calc bytesOf m 6 (n + 2)
      = bytesOf m 6 n ++ bytesOf m (6 + n) 2 := by rw [bytesOf, ← List.range'_append_1, List.map_append]; rfl
    _ = bytesOf m' 6 n ++ [m.read (6 + n), m.read (6 + n + 1)] := by rw [hbytes]; rfl
    _ = bytesOf m' 6 n ++ [0, 0] := by rw [hpad _ (by omega) (by omega), hpad _ (by omega) (by omega)]

/-- The plain frame under the ALT codec from byte 2 on: the command id, two zero bytes, and the rest left alone. -/
theorem plainFrame_alt (hc : s.codecAlt = true) (n c : BitVec 11) (hwf : s.txbuf.wf) :
    ∃ m, plainFrame n c s = s.setTxbuf m ∧ m.wf ∧ m.read 2 = lowByte (c.setWidth 16) ∧
      m.read 3 = highByte (c.setWidth 16) ∧ m.read 4 = 0 ∧ m.read 5 = 0 ∧ ∀ a, 6 ≤ a → m.read a = s.txbuf.read a := by
  obtain ⟨m, hplain, hm, hprologue, hpayload, -, hrest⟩ := plainFrame_spec s n c hwf
  rw [frameSize_alt hc] at hrest
  refine ⟨m, hplain, hm, hprologue 2 (by decide), hprologue 3 (by decide), hprologue 4 (by decide), hprologue 5 (by decide),
    fun a h6 => ?_⟩
  rcases Nat.lt_or_ge a (6 + n.toNat) with hlt | hge
  · exact hpayload a h6 hlt
  · exact hrest a (by omega)

end Sys2Proof.Machine

namespace Sys2Proof.Proofs

open Sys2Proof.Machine Sys2Proof.Safety

/-- Settles O37: `encrypt()` of the plain frame, whose padding is encrypted to its keystream alone. -/
theorem txsendBuildsAStreamFrame : Obligations.TxsendBuildsAStreamFrame := by
  unfold Obligations.TxsendBuildsAStreamFrame
  intro n c s hf hc hk ht hn hwf
  obtain ⟨size, hsize, hexec⟩ := exec_txsend_stream (c := c) hf hc hk ht hn
  obtain ⟨m₀, hplain, hm₀, hpayload, hpad, hrest⟩ := plainFrame_stream hc n c hwf
  obtain ⟨m, hencrypt, -, hheader, hck, hbody, htail⟩ :=
    encryptFrame_spec Config.hardware (s.setTxbuf m₀) size c (by omega) hm₀
  refine ⟨m, size, hsize, ?_, hheader, ?_, fun a h6 ha => ?_, fun a h6 ha => ?_, fun a ha => ?_⟩
  · rw [hexec, hplain, hencrypt]
    rfl
  · have hbytes : bytesOf m₀ 6 (size.toNat - 6) = bytesOf s.txbuf 6 n.toNat ++ [0, 0] := by
      rw [← bytesOf_padded hpayload hpad, hsize]
      rfl
    rw [List.append_assoc, ← hbytes, checksumFrom_append]
    exact hck
  · rw [hbody a h6 (by omega), ← hpayload a h6 ha]
    rfl
  · rw [hbody a (by omega) ha, State.setTxbuf_txbuf, hpad a h6 (by omega)]
    exact BitVec.zero_xor
  · rw [htail a ha, ← hrest a (by omega)]
    rfl

/-- Settles O38: `aencrypt()` of the plain frame, which writes the length once more and XORs the rest of the prologue. -/
theorem txsendBuildsAnAltFrame : Obligations.TxsendBuildsAnAltFrame := by
  unfold Obligations.TxsendBuildsAnAltFrame
  intro n c s hf hc ht hn hwf
  obtain ⟨size, hsize, hexec⟩ := exec_txsend_alt (c := c) hf hc ht hn
  obtain ⟨m₀, hplain, hm₀, h2, h3, h4, h5, hrest⟩ := plainFrame_alt hc n c hwf
  obtain ⟨m, haencrypt, -, hlow, hhigh, hread⟩ := aencryptFrame_spec Config.hardware (s.setTxbuf m₀) size hm₀
  have hprologue (a : Nat) (ha2 : 2 ≤ a) (ha6 : a < 6) : m.read a = m₀.read a ^^^ Config.altx := by
    rw [hread a ha2, if_pos (.inl ha6)]
    rfl
  refine ⟨m, size, hsize, ?_, hlow, hhigh, ?_, ?_, ?_, ?_, fun a h6 => ?_⟩
  · rw [hexec, hplain, haencrypt]
    rfl
  · rw [hprologue 2 (by decide) (by decide), h2]
    rfl
  · rw [hprologue 3 (by decide) (by decide), h3]
    rfl
  · rw [hprologue 4 (by decide) (by decide), h4]
    exact BitVec.zero_xor
  · rw [hprologue 5 (by decide) (by decide), h5]
    exact BitVec.zero_xor
  · rw [hread a (by omega), State.setTxbuf_txbuf, hrest a h6]
    simp only [show ¬ a < 6 by omega, false_or]
    rfl

end Sys2Proof.Proofs
end

section
/-! PROOFS. The commands of the alternate codec, each where every check of its rule passes: `ADECHDR` (R191), `ADECBODY` (R192)
and `AENCRYPT` (R193) of spec/45_alt_codec.md, and their round trip (R195): the receiver's two procedures together XOR the very
bytes that the sender XORed. -/

namespace Sys2Proof.Machine

variable {p : Params} {s : State} {size : BitVec 11}

/-! ## The commands where every check of their rules passes -/

theorem exec_adechdr (hf : s.fstate ≠ .failed) (ha : s.auto = false) (hl : 6 ≤ s.rxlen.toNat) :
    exec .adechdr s =
      .next ((adechdr Config.hardware s).respond stOk ((adechdr Config.hardware s).blen.setWidth 32)) := by
  show adechdrCommand Config.hardware s = _
  simp [adechdrCommand, hf, ha, Nat.not_lt.2 hl, complete]

theorem exec_adecbody (hf : s.fstate ≠ .failed) (ha : s.auto = false) (hb : s.bodyBuffered = true) :
    exec .adecbody s = .next ((adecbody Config.hardware s).respond stOk 1) := by
  show adecbodyCommand Config.hardware s = _
  simp [adecbodyCommand, hf, ha, hb, complete]

theorem exec_aencrypt (hf : s.fstate ≠ .failed) (ht : s.txlen = 0) (hl : 6 ≤ size.toNat) :
    exec (.aencrypt size) s = .next ((aencryptFrame Config.hardware size s).respond stOk (size.setWidth 32)) := by
  show aencryptCommand Config.hardware size s = _
  simp [aencryptCommand, hf, ht, Nat.not_lt.2 hl, complete]

/-! ## The round trip (R195) -/

theorem highByte_append_lowByte (v : BitVec 16) : highByte v ++ lowByte v = v :=
  (BitVec.extractLsb'_append_extractLsb'_eq_extractLsb' rfl).trans BitVec.extractLsb'_eq_self

/-- The length that `ADECHDR` reads in clear is the one `AENCRYPT` wrote. -/
theorem adechdr_blen_of_length (h0 : s.rxbuf.read 0 = lowByte (size.setWidth 16))
    (h1 : s.rxbuf.read 1 = highByte (size.setWidth 16)) : (adechdr p s).blen = size.setWidth 16 := by
  have hblen : (adechdr p s).blen = s.rxbuf.read 1 ++ s.rxbuf.read 0 := rfl
  rw [hblen, h0, h1, highByte_append_lowByte]

/-- After `adechdr()` and `adecbody()` of a frame of `n` bytes, exactly those bytes are XORed that `aencrypt(n)` XORs. -/
theorem read_adecbody_adechdr (p : Params) (h : s.rxbuf.wf) {n : Nat} (hn : (adechdr p s).blen.toNat = n) {a : Nat}
    (ha : 2 ≤ a) :
    (adecbody p (adechdr p s)).rxbuf.read a =
      if a < 6 ∨ a + 2 < n then s.rxbuf.read a ^^^ p.altx else s.rxbuf.read a := by
  obtain ⟨m, hadechdr, hm, hheader⟩ := adechdr_spec p s h
  have hbuf : (adechdr p s).rxbuf = m := by rw [hadechdr]; rfl
  obtain ⟨m', hadecbody, -, hbody⟩ := adecbody_spec p (adechdr p s) (hbuf ▸ hm)
  rw [hadecbody, State.setRxbuf_rxbuf, hbody, hbuf, hheader, hn]
  by_cases h6 : a < 6
  · rw [if_neg (by omega), if_pos ⟨ha, h6⟩, if_pos (.inl h6)]
  · simp only [h6, and_false, if_false, false_or, Nat.not_lt.1 h6, true_and]

end Sys2Proof.Machine

namespace Sys2Proof.Proofs

open Sys2Proof.Machine

/-- Settles O34: what `adechdr()` does; its answer is the length it loads. -/
theorem adechdrDecodesTheHeader : Obligations.AdechdrDecodesTheHeader := by
  unfold Obligations.AdechdrDecodesTheHeader
  intro s hf ha hl hwf
  obtain ⟨m, hadechdr, -, hread⟩ := adechdr_spec Config.hardware s hwf
  refine ⟨m, _, rfl, ?_, hread⟩
  rw [exec_adechdr hf ha hl, hadechdr]
  rfl

/-- Settles O35: what `adecbody()` does; it looks at no checksum, so the answer is always 1. -/
theorem adecbodyDecodesTheBody : Obligations.AdecbodyDecodesTheBody := by
  unfold Obligations.AdecbodyDecodesTheBody
  intro s hf ha hl hb hwf
  obtain ⟨m, hadecbody, -, hread⟩ := adecbody_spec Config.hardware s hwf
  refine ⟨m, ?_, hread⟩
  rw [exec_adecbody hf ha (bodyBuffered_iff.2 ⟨hl, hb⟩), hadecbody]
  rfl

/-- Settles O36: what `aencrypt()` writes. -/
theorem aencryptWritesTheFrame : Obligations.AencryptWritesTheFrame := by
  unfold Obligations.AencryptWritesTheFrame
  intro size s hf ht hl hwf
  obtain ⟨m, haencrypt, -, hlow, hhigh, hread⟩ := aencryptFrame_spec Config.hardware s size hwf
  refine ⟨m, ?_, hlow, hhigh, hread⟩
  rw [exec_aencrypt hf ht hl, haencrypt]
  rfl

/-- Settles O55: the header gives the length back, so both sides XOR the same bytes with the same constant. -/
theorem altCodecRoundTrip : Obligations.AltCodecRoundTrip := by
  unfold Obligations.AltCodecRoundTrip
  intro size tx sent rx hl hf ht hwf hsent hrf hra hrwf hrl hwire
  obtain rfl := Host.Outcome.next.inj ((exec_aencrypt hf ht hl).symm.trans hsent)
  obtain ⟨m, haencrypt, -, hlow, hhigh, hframe⟩ := aencryptFrame_spec Config.hardware tx size hwf
  have hread (a : Nat) (ha : a < size.toNat) : rx.rxbuf.read a = m.read a := by
    rw [hwire a ha, haencrypt]
    rfl
  have hblen : (adechdr Config.hardware rx).blen = size.setWidth 16 :=
    adechdr_blen_of_length ((hread 0 (by omega)).trans hlow) ((hread 1 (by omega)).trans hhigh)
  have hlen : (adechdr Config.hardware rx).blen.toNat = size.toNat := by
    rw [hblen, BitVec.toNat_setWidth_of_le (by decide)]
  have hadechdr := exec_adechdr hrf hra (hrl ▸ hl)
  rw [hblen, BitVec.setWidth_setWidth (by decide)] at hadechdr
  have hbuffered : (adechdr Config.hardware rx).bodyBuffered = true := by
    rw [bodyBuffered_iff, hlen, adechdr_rxlen, hrl]
    exact ⟨hl, le_refl _⟩
  have hadecbody := exec_adecbody (s := (adechdr Config.hardware rx).respond stOk (size.setWidth 32)) hrf hra hbuffered
  refine ⟨_, _, hadechdr, rfl, hadecbody, rfl, fun a h2 ha => ?_⟩
  refine (read_adecbody_adechdr Config.hardware hrwf hlen h2).trans ?_
  rw [hread a ha, hframe a h2]
  by_cases hxored : a < 6 ∨ a + 2 < size.toNat
  · rw [if_pos hxored, if_pos hxored, xor_cancel_right]
  · rw [if_neg hxored, if_neg hxored]

end Sys2Proof.Proofs
end

section
/-! PROOFS. How a command is refused (spec/60_exceptions.md R204, R207 to R209). A command is a chain of checks, tried in the
order of R209: each proof passes the checks that hold and ends at the one that does not. -/

namespace Sys2Proof.Machine

variable {s : State} {c c' : Prop} [Decidable c] [Decidable c'] {o o' r : Result} {st : BitVec 8}

/-! ## One check of a chain -/

theorem check_passed (h : ¬ c) (hr : o' = r) : (if c then o else o') = r := (if_neg h).trans hr

theorem check_refused (h : c) : (if c then refuse s st else o) = .next (answered s st 0) := if_pos h

/-- Two checks in a row with the same refusal. -/
theorem check_refused_either (h : c ∨ c') :
    (if c then refuse s st else if c' then refuse s st else o) = .next (answered s st 0) := by
  by_cases hc : c
  · exact check_refused hc
  · exact check_passed hc (check_refused (h.resolve_left hc))

/-- The mode that a command with two meanings is in. -/
theorem mode_taken (h : c) (hr : o = r) : (if c then o else o') = r := (if_pos h).trans hr

/-! ## What the checks ask -/

theorem keyCheck_fails (hk : s.ksvalid = false) : (!s.ksvalid) = true := by rw [hk, Bool.not_false]

theorem keyCheck_passes (hk : s.ksvalid = true) : ¬ (!s.ksvalid) = true := by simp [hk]

/-- The key schedule is asked for under the stream codec only (R170, R179). -/
theorem codecKeyCheck_fails (hc : s.codecAlt = false) (hk : s.ksvalid = false) : (!s.codecAlt && !s.ksvalid) = true := by
  rw [hc, hk, Bool.not_false, Bool.and_self]

theorem codecKeyCheck_passes (h : s.codecAlt = true ∨ s.ksvalid = true) : ¬ (!s.codecAlt && !s.ksvalid) = true := by
  rcases h with hc | hk
  · simp [hc]
  · simp [hk]

theorem idleCheck_fails (h : ¬ (s.fstate = .awaitHeader ∧ s.rxlen = 0 ∧ s.txlen = 0)) : (!s.idle) = true := by
  rw [Bool.not_eq_true', Bool.eq_false_iff, ne_eq, idle_iff]
  exact h

theorem bodyCheck_fails (h : s.rxlen.toNat < max 6 s.blen.toNat) : (!s.bodyBuffered) = true := by
  simpa only [State.bodyBuffered, Bool.not_eq_true', decide_eq_false_iff_not, not_le] using h

/-! ## `Failed` (R204) -/

/-- The check of `Failed` is the first of every command that has it. -/
theorem exec_refused_of_failed {i : Instr} (hf : s.fstate = .failed) (hi : ¬ acceptedInFailed i) :
    exec i s = .next (answered s refFailed 0) := by
  cases i with
  | nop | reset | ctrlrd | status | hdrrd => exact absurd trivial hi
  | _ => exact check_refused hf

theorem exec_ok_of_accepted {i : Instr} (hi : acceptedInFailed i) (s : State) :
    ∃ t r, exec i s = .next t ∧ t.response = some ⟨stOk, r⟩ := by
  cases i with
  | nop | reset | ctrlrd | status | hdrrd => exact ⟨_, _, rfl, rfl⟩
  | _ => exact False.elim hi

end Sys2Proof.Machine

namespace Sys2Proof.Proofs

open Sys2Proof.Machine

/-- Settles O39: the five commands are those that check nothing. -/
theorem failedRefusesAllButFive : Obligations.FailedRefusesAllButFive := by
  unfold Obligations.FailedRefusesAllButFive
  exact fun i s hf => ⟨exec_refused_of_failed hf, fun hi => exec_ok_of_accepted hi s⟩

/-- Settles O40: the check of the key schedule comes before those of the state and of the operands. -/
theorem noKeyRefusals : Obligations.NoKeyRefusals := by
  unfold Obligations.NoKeyRefusals
  intro s hf hk
  have hkey := keyCheck_fails hk
  refine ⟨fun _ => ?ptrd, fun _ => ?itrd, fun _ => ?vsrd, ?dechdr, ?decbody, fun _ _ => ?encrypt,
    fun hc => ⟨?getseed, fun _ _ => ?txsend, fun ha _ => ?rxpush⟩⟩
  case getseed => exact check_passed hf (check_passed (ne_true_of_eq_false hc) (check_refused hkey))
  case txsend => exact check_passed hf (check_refused (codecKeyCheck_fails hc hk))
  case rxpush => exact check_passed hf (mode_taken ha (check_refused (codecKeyCheck_fails hc hk)))
  all_goals exact check_passed hf (check_refused hkey)

/-- Settles O41: the check of the state comes after that of the key schedule and before those of the operands. -/
theorem stateRefusals : Obligations.StateRefusals := by
  unfold Obligations.StateRefusals
  intro s hf
  refine ⟨fun hbusy _ => ?ctrlwr, fun hk _ => ?keygen, fun ha hready hkey _ => ?rxpush, fun hk h => ?dechdr,
    fun hk h => ?decbody, fun h => ?adechdr, fun h => ?adecbody, fun ha hwaits => ⟨?rxpkt, ?rxnext⟩,
    fun ht => ⟨fun _ _ => ?txwr, fun _ => ?aencrypt, fun hk _ _ => ?encrypt, fun hkey _ _ => ?txsend⟩,
    fun ht => ?txdone⟩
  case ctrlwr => exact check_passed hf (check_refused (idleCheck_fails hbusy))
  case keygen => exact check_passed hf (check_refused hk)
  case rxpush => exact check_passed hf (mode_taken ha (check_passed (codecKeyCheck_passes hkey) (check_refused hready)))
  case dechdr => exact check_passed hf (check_passed (keyCheck_passes hk) (check_refused_either h))
  case decbody =>
    exact check_passed hf (check_passed (keyCheck_passes hk) (check_refused_either (h.imp_right bodyCheck_fails)))
  case adechdr => exact check_passed hf (check_refused_either h)
  case adecbody => exact check_passed hf (check_refused_either (h.imp_right bodyCheck_fails))
  case rxpkt | rxnext => exact check_passed hf (check_refused ⟨ha, hwaits⟩)
  case txwr | aencrypt => exact check_passed hf (check_refused ht)
  case encrypt => exact check_passed hf (check_passed (keyCheck_passes hk) (check_refused ht))
  case txsend => exact check_passed hf (check_passed (codecKeyCheck_passes hkey) (check_refused ht))
  case txdone => exact check_passed hf (check_refused ht)

/-- Settles O42: the check of the operands is the last one; a frame's size counts its six header bytes and its padding. -/
theorem rangeRefusals : Obligations.RangeRefusals := by
  unfold Obligations.RangeRefusals
  intro s hf
  refine ⟨fun hk _ hi => ?vsrd, fun ha hl _ => ?rxpush, fun _ hl => ?rxrd, fun _ hl => ?txrd,
    fun ht => ⟨fun _ _ hl => ?txwr, fun _ hl => ?aencrypt, fun hk _ _ hl => ?encrypt, fun hc hk n _ hl => ?txsendStream,
      fun hc n _ hl => ?txsendAlt⟩⟩
  case vsrd => exact check_passed hf (check_passed (keyCheck_passes hk) (check_refused hi))
  case rxpush => exact check_passed hf (check_passed (ne_true_of_eq_false ha) (check_refused hl.ge))
  case rxrd => exact check_passed hf (check_refused hl)
  case txrd => exact check_passed hf (check_refused hl.ge)
  case txwr => exact check_passed hf (check_passed (not_not.2 ht) (check_refused hl.ge))
  case aencrypt => exact check_passed hf (check_passed (not_not.2 ht) (check_refused hl))
  case encrypt => exact check_passed hf (check_passed (keyCheck_passes hk) (check_passed (not_not.2 ht) (check_refused hl)))
  case txsendStream =>
    have hsize : Config.bufcap < s.frameSize n := by
      rw [frameSize_stream hc, Config.bufcap]
      omega
    exact check_passed hf (check_passed (codecKeyCheck_passes (.inr hk))
      (check_passed (not_not.2 ht) (check_refused hsize)))
  case txsendAlt =>
    have hsize : Config.bufcap < s.frameSize n := by
      rw [frameSize_alt hc, Config.bufcap]
      omega
    exact check_passed hf (check_passed (codecKeyCheck_passes (.inl hc))
      (check_passed (not_not.2 ht) (check_refused hsize)))

end Sys2Proof.Proofs
end

section
/-! PROOFS. How every command ends (spec/60_exceptions.md R200 to R210): with a code of its row, as a refusal, a completion or a
fatal error, or in one of the model's faults, of which only that of `KEYGEN` is met where the invariants hold (R202). -/

namespace Sys2Proof.Machine

open Sys2Proof.Safety

variable {p : Params} {s t : State} {i : Instr} {f : Fault} {codes codes' : List (BitVec 8)} {stop stop' : Fault → Prop}
  {o o' : Result}

/-! ## Refusal, completion and fatal error (R13) -/

/-- `t` is in `Failed` and answers what its `ERR` holds (R203). -/
def AnswersFatal (t : State) : Prop := t.fstate = .failed ∧ t.response = some ⟨stFatal, t.err.setWidth 32⟩

/-- The three outcomes of a command `i` that takes `s` to a next state; the codes of refusals are those from 0x10 on (R208). -/
inductive Concludes (i : Instr) (s : State) : State → Prop where
  | refused (c : BitVec 8) (hc : 0x10 ≤ c.toNat) : Concludes i s (s.respond c 0)
  | completed {t : State} (r : Word) (h : t.response = some ⟨stOk, r⟩) : Concludes i s t
  | fatal {t : State} (h : AnswersFatal t) (hi : i = .linkdown ∨ (∃ b, i = .rxpush b) ∧ s.auto = true) : Concludes i s t

theorem answersFatal_enterFailed (s : State) (e : BitVec 3) :
    AnswersFatal ((s.enterFailed e).respond stFatal ((s.enterFailed e).err.setWidth 32)) := ⟨rfl, rfl⟩

theorem bodyTransition_answer (h : bodyTransition p s = .next t) :
    (∃ r, t.response = some ⟨stOk, r⟩) ∨ AnswersFatal t := by
  rcases bodyTransition_cases h with ⟨_, rfl⟩ | ⟨_, _, ⟨_, rfl⟩ | ⟨_, rfl⟩⟩
  · exact .inl ⟨_, rfl⟩
  · exact .inl ⟨_, rfl⟩
  · exact .inr (answersFatal_enterFailed _ 3)

theorem advance_answer (h : advance p s = .next t) : (∃ r, t.response = some ⟨stOk, r⟩) ∨ AnswersFatal t := by
  rcases advance_cases h with ⟨_, hbody⟩ | ⟨_, ⟨_, rfl⟩ | ⟨_, _, hbody⟩⟩
  · exact bodyTransition_answer hbody
  · exact .inr (answersFatal_enterFailed _ 2)
  · exact bodyTransition_answer hbody

theorem refusal_code_ge {c : BitVec 8} (h : c = refFailed ∨ c = refNokey ∨ c = refState ∨ c = refRange) :
    0x10 ≤ c.toNat := by
  rcases h with rfl | rfl | rfl | rfl <;> decide

theorem exec_concludes (h : exec i s = .next t) : Concludes i s t := by
  cases exec_cases h with
  | refused _ _ c hc => exact .refused c (refusal_code_ge hc)
  | rxpushAuto b _ _ _ ha _ _ _ hadv =>
    rcases advance_answer hadv with ⟨r, hr⟩ | hfatal
    · exact .completed r hr
    · exact .fatal hfatal (.inr ⟨⟨b, rfl⟩, ha⟩)
  | linkdown => exact .fatal (answersFatal_enterFailed s 1) (.inl rfl)
  | _ => exact .completed _ rfl

/-- In `Failed` only `RESET` has an effect: every other command is refused or reads a register (R204, R205). -/
theorem exec_answered_of_failed (hf : s.fstate = .failed) (hi : i ≠ .reset) (h : exec i s = .next t) :
    ∃ st r, t = answered s st r := by
  cases exec_cases h with
  | reset => exact absurd rfl hi
  | refused | nop | ctrlrd | status | hdrrd => exact ⟨_, _, rfl⟩
  | _ => exact absurd hf ‹_›

/-! ## Codes and faults -/

/-- A result that is a next state answering with one of `codes`, or a fault that `stop` allows. That a code is listed is said as
a Boolean, which a row of R210 computes. -/
inductive Ends (codes : List (BitVec 8)) (stop : Fault → Prop) : Result → Prop where
  | answers {t : State} {st : BitVec 8} {r : Word} (h : t.response = some ⟨st, r⟩) (hst : codes.contains st = true) :
      Ends codes stop (.next t)
  | stops {f : Fault} (h : stop f) : Ends codes stop (.fault f)

theorem Ends.complete (s : State) (r : Word) (h : codes.contains stOk = true := by rfl) :
    Ends codes stop (complete s r) := .answers rfl h

theorem Ends.raiseFatal (s : State) (e : BitVec 3) (h : codes.contains stFatal = true := by rfl) :
    Ends codes stop (raiseFatal s e) := .answers rfl h

theorem Ends.ite {c : Prop} [Decidable c] (h : c → Ends codes stop o) (h' : ¬ c → Ends codes stop o') :
    Ends codes stop (if c then o else o') := by
  split
  · next hc => exact h hc
  · next hc => exact h' hc

/-- One check of a chain, whose refusal is in the command's row. -/
theorem Ends.check {c : Prop} [Decidable c] {st : BitVec 8} (h : ¬ c → Ends codes stop o)
    (hst : codes.contains st = true := by rfl) : Ends codes stop (if c then refuse s st else o) :=
  .ite (fun _ => .answers rfl hst) h

theorem Ends.mono (h : Ends codes stop o) (hcodes : codes ⊆ codes') (hstop : ∀ f, stop f → stop' f) :
    Ends codes' stop' o := by
  cases h with
  | answers h hst => exact .answers h (List.contains_iff_mem.2 (hcodes (List.contains_iff_mem.1 hst)))
  | stops h => exact .stops (hstop _ h)

/-- `AwaitBody` with `NEED` bytes buffered but fewer than the body procedure needs. -/
def BodyShort (s : State) : Prop :=
  s.fstate = .awaitBody ∧ s.need.toNat ≤ s.rxlen.toNat ∧ s.bodyBuffered = false

/-- What each fault of the model needs: a key schedule that never ends (R129), or an `RXPUSH` in AUTO mode into a full buffer
or before a body that is short. -/
inductive StopsAt : Instr → State → Fault → Prop where
  | keygen (seed : Word) (s : State) (h : ks Config.hardware seed = none) : StopsAt (.keygen seed) s .keygenNeverEnds
  | overrun (b : Byte) (s : State) (ha : s.auto = true) (hf : s.fstate ≠ .failed) (hr : s.fstate ≠ .ready)
      (hl : 2047 ≤ s.rxlen.toNat) : StopsAt (.rxpush b) s .rxOverrun
  | short (b : Byte) (s : State) (ha : s.auto = true) (hl : s.rxlen.toNat < 2047) (h : BodyShort (s.pushByte b)) :
      StopsAt (.rxpush b) s .bytesMissing

theorem bodyTransition_ends (p : Params) (s : State) :
    Ends [stOk, stFatal] (fun f => f = .bytesMissing ∧ BodyShort s) (bodyTransition p s) := by
  refine .ite (fun ⟨hf, hn⟩ => .ite (fun _ => ?accepted) fun hb => ?short) fun _ => .complete ..
  case accepted => exact .ite (fun _ => .complete ..) fun _ => .raiseFatal ..
  case short => exact .stops ⟨rfl, hf, hn, eq_false_of_ne_true hb⟩

/-- A header transition sets `NEED` to `BLEN` with six bytes buffered, so the body it waits for is not short. -/
theorem not_bodyShort_of_header (h6 : 6 ≤ s.rxlen.toNat) :
    ¬ BodyShort ((runHeader p s).awaitBody (runHeader p s).blen) := by
  rintro ⟨_, hn, hb⟩
  have hl : ((runHeader p s).awaitBody (runHeader p s).blen).rxlen = s.rxlen := by simp
  exact ne_true_of_eq_false hb (bodyBuffered_iff.2 ⟨hl ▸ h6, hn⟩)

theorem advance_ends (p : Params) (s : State) :
    Ends [stOk, stFatal] (fun f => f = .bytesMissing ∧ BodyShort s) (advance p s) := by
  refine .ite (fun ⟨_, h6⟩ => .ite (fun _ => .raiseFatal ..) fun _ => ?header) fun _ => bodyTransition_ends p s
  exact (bodyTransition_ends p _).mono (List.Subset.refl _) fun _ ⟨_, hshort⟩ => absurd hshort (not_bodyShort_of_header h6)

theorem exec_keygen_ends (seed : Word) (s : State) :
    Ends (outcomesOf (.keygen seed)) (StopsAt (.keygen seed) s) (exec (.keygen seed) s) := by
  refine .check fun _ => .check fun _ => ?_
  cases hks : ks Config.hardware seed with
  | none => exact .stops (.keygen seed s hks)
  | some k => exact .complete ..

theorem exec_rxpush_ends (b : Byte) (s : State) :
    Ends (outcomesOf (.rxpush b)) (StopsAt (.rxpush b) s) (exec (.rxpush b) s) := by
  refine .check fun hf => .ite (fun ha => .check fun _ => .check fun hr => ?auto) fun _ => .check fun _ => .complete ..
  refine .ite (fun hl => .stops (.overrun b s ha hf hr hl)) fun hl => ?advance
  refine (advance_ends Config.hardware (s.pushByte b)).mono (by simp [outcomesOf, stOk, stFatal]) ?fault
  rintro _ ⟨rfl, hshort⟩
  exact .short b s ha (not_le.1 hl) hshort

/-- The checks of every command in the order of its rule, each refusing with a code of its row (R209, R210). -/
theorem exec_ends (i : Instr) (s : State) : Ends (outcomesOf i) (StopsAt i s) (exec i s) := by
  cases i with
  | nop | reset | ctrlrd | status | hdrrd => exact .complete ..
  | keygen seed => exact exec_keygen_ends seed s
  | rxpush b => exact exec_rxpush_ends b s
  | linkdown => exact .check fun _ => .raiseFatal ..
  | getseed => exact .check fun _ => .ite (fun _ => .complete ..) fun _ => .check fun _ => .complete ..
  | ctrlwr | ptrd | itrd | rxrd | rxpkt | rxnext | txrd | txdone => exact .check fun _ => .check fun _ => .complete ..
  | vsrd | adechdr | adecbody | txwr | aencrypt =>
    exact .check fun _ => .check fun _ => .check fun _ => .complete ..
  | dechdr | decbody | encrypt | txsend =>
    exact .check fun _ => .check fun _ => .check fun _ => .check fun _ => .complete ..

theorem exec_answers (h : exec i s = .next t) : ∃ st r, t.response = some ⟨st, r⟩ ∧ st ∈ outcomesOf i := by
  have hends := exec_ends i s
  rw [h] at hends
  cases hends with
  | answers hr hst => exact ⟨_, _, hr, List.contains_iff_mem.1 hst⟩

/-! ## The faults under the invariants (R46, R202) -/

/-- In AUTO mode a framer that waits for bytes has room for the next one. -/
theorem Framed.rxlen_lt (h : Framed s) (ha : s.auto = true) (hf : s.fstate ≠ .failed) (hr : s.fstate ≠ .ready) :
    s.rxlen.toNat < 2047 := by
  obtain ⟨hheader, hbody, _⟩ := h.autoMode ha
  cases hs : s.fstate with
  | awaitHeader =>
    obtain ⟨hlt, _⟩ := hheader hs
    omega
  | awaitBody =>
    obtain ⟨_, hlt, hle, _⟩ := hbody hs
    omega
  | ready => exact absurd hs hr
  | failed => exact absurd hs hf

/-- A body that is awaited under the invariants is as long as `NEED` says. -/
theorem Framed.not_bodyShort (h : Framed s) (ha : s.auto = true) (hl : s.rxlen.toNat < 2047) (b : Byte) :
    ¬ BodyShort (s.pushByte b) := by
  rintro ⟨hf, hn, hb⟩
  obtain ⟨_, hbody, _⟩ := h.autoMode ha
  obtain ⟨h6, _, _, hneed, _⟩ := hbody hf
  refine ne_true_of_eq_false hb (bodyBuffered_iff.2 ⟨?_, ?_⟩)
  · rw [toNat_rxlen_pushByte b hl]
    omega
  · rwa [State.pushByte_need, hneed] at hn

theorem StopsAt.keygen_of_invariant (h : StopsAt i s f) (hinv : Invariant s) :
    ∃ seed, i = .keygen seed ∧ ks Config.hardware seed = none ∧ f = .keygenNeverEnds := by
  obtain ⟨_, hframed⟩ := invariant_iff.1 hinv
  cases h with
  | keygen seed _ hks => exact ⟨seed, rfl, hks, rfl⟩
  | overrun _ _ ha hf hr hl => exact absurd (hframed.rxlen_lt ha hf hr) (not_lt.2 hl)
  | short b _ ha hl hshort => exact absurd hshort (hframed.not_bodyShort ha hl b)

/-- A step stops only where the command of its word does. -/
theorem step_fault (h : step s = .fault f) : ∃ i q, exec i (s.withPending q) = .fault f := by
  cases hp : s.pending with
  | nil => simp [step_of_pending_nil hp] at h
  | cons w q =>
    rw [step_of_pending_cons hp] at h
    cases hd : decode w with
    | ok i => exact ⟨i, q, answerWord_of_decode_ok hd ▸ h⟩
    | error e => simp [answerWord, hd] at h

end Sys2Proof.Machine

namespace Sys2Proof.Proofs

open Sys2Proof.Machine Sys2Proof.Safety

/-- Settles O43: of the three outcomes, only a refusal answers with a code from 0x10 on. -/
theorem refusalChangesNothing : Obligations.RefusalChangesNothing := by
  unfold Obligations.RefusalChangesNothing
  intro i s t st r hexec hr hst
  cases exec_concludes hexec with
  | refused c =>
    obtain ⟨rfl, -⟩ : c = st ∧ 0 = r := by simpa using hr
    rfl
  | completed r' hok =>
    obtain ⟨rfl, -⟩ : stOk = st ∧ r' = r := by simpa using hok.symm.trans hr
    exact absurd hst (by decide)
  | fatal hfatal =>
    obtain ⟨_, hanswer⟩ := hfatal
    obtain ⟨rfl, -⟩ : stFatal = st ∧ t.err.setWidth 32 = r := by simpa using hanswer.symm.trans hr
    exact absurd hst (by decide)

/-- Settles O44: every way a command can end answers with a code of its row. -/
theorem outcomesOfEachCommand : Obligations.OutcomesOfEachCommand := by
  unfold Obligations.OutcomesOfEachCommand
  exact fun _ _ _ hexec => exec_answers hexec

/-- Settles O46: of the three outcomes, only the fatal error answers `FATAL`; a refusal's codes are others. -/
theorem fatalErrorsAndTheWayOut : Obligations.FatalErrorsAndTheWayOut := by
  unfold Obligations.FatalErrorsAndTheWayOut
  refine ⟨fun i s t r hexec hr => ?_, fun i s t hf hi hexec => exec_answered_of_failed hf hi hexec⟩
  cases exec_concludes hexec with
  | refused c hc =>
    obtain ⟨rfl, -⟩ : c = 0x01 ∧ 0 = r := by simpa using hr
    exact absurd hc (by decide)
  | completed r' hok => simp [stOk, hok] at hr
  | fatal hfatal hi =>
    obtain ⟨hf, hanswer⟩ := hfatal
    obtain ⟨-, rfl⟩ : stFatal = 0x01 ∧ t.err.setWidth 32 = r := by simpa using hanswer.symm.trans hr
    exact ⟨hf, rfl, hi⟩

/-- Settles O59: under the invariants the only fault left is that of `KEYGEN`. -/
theorem everyCommandCompletesUnderTheInvariant : Obligations.EveryCommandCompletesUnderTheInvariant := by
  unfold Obligations.EveryCommandCompletesUnderTheInvariant
  intro i s hinv
  have hends := exec_ends i s
  cases hexec : exec i s with
  | next t => exact .inl ⟨t, rfl⟩
  | fault f =>
    rw [hexec] at hends
    cases hends with
    | stops hstop =>
      obtain ⟨seed, hi, hks, rfl⟩ := hstop.keygen_of_invariant hinv
      exact .inr ⟨seed, hi, hks, rfl⟩
  | refused _ =>
    rw [hexec] at hends
    cases hends

/-- Settles O60: the invariants hold at reset and every step keeps them; a step's fault is that of a command. -/
theorem reachableStatesAreSafe : Obligations.ReachableStatesAreSafe := by
  unfold Obligations.ReachableStatesAreSafe
  intro s hreach
  have hinv : Invariant s := by
    induction hreach with
    | start q => exact invariantHoldsAtReset q
    | move _ hstep ih => exact invariantKeptByEveryStep _ _ ih hstep
  refine ⟨hinv, fun f hstep => ?_⟩
  obtain ⟨i, q, hfault⟩ := step_fault hstep
  rcases everyCommandCompletesUnderTheInvariant i _ (withPending_preserves_invariant hinv q) with
    ⟨t, hnext⟩ | ⟨_, _, _, hkeygen⟩
  · simp [hfault] at hnext
  · exact (Host.Outcome.fault.inj (hkeygen.symm.trans hfault)).symm

end Sys2Proof.Proofs
end
